-- ==== Sys2Proof/Word.lean ====
section
/-! DEFINITION. The two widths of the machine (00_scope R6, R8): the byte and the 16-bit word (an address). -/

namespace Sys2Proof

/-- A register, a memory cell, an operand byte: 8 bits, unsigned (00_scope R6). -/
abbrev Byte := BitVec 8

/-- An address or the program counter: 16 bits, arithmetic modulo 65536 (00_scope R6; 20_memory R41). -/
abbrev Word := BitVec 16

end Sys2Proof
end

