-- ==== Sys2Proof/Machine/Bytes.lean ====
section
/-! DEFINITION. Byte order, extension and pairing helpers (00_scope R9, R10; 20_memory R43). -/

namespace Sys2Proof.Machine

/-- The word whose low byte is `lo` and high byte `hi`: `lo + 256*hi` (00_scope R9; 20_memory R43). -/
def word (lo hi : Byte) : Word := hi ++ lo

/-- `v mod 256` of a word. -/
def lowByte (w : Word) : Byte := w.extractLsb' 0 8

/-- `v >> 8` of a word. -/
def highByte (w : Word) : Byte := w.extractLsb' 8 8

/-- `zext_16` of 00_scope R10. -/
def zext16 (b : Byte) : Word := b.setWidth 16

/-- `sext_8` of 00_scope R10, taken modulo 65536: the two's-complement reading of a byte as a word. -/
def sext16 (b : Byte) : Word := b.signExtend 16

/-- Byte `k` of a number, byte 0 the least significant. -/
def byteAt (w k : Nat) : Byte := BitVec.ofNat 8 (w / 256 ^ k)

end Sys2Proof.Machine
end

