-- ==== Sys2Proof/Config.lean ====
section
/-! DEFINITION. What is fixed for a run: the four launch parameters (00_scope R7), and what an unlisted memory cell reads as.
The spec leaves no other value open, so there is no opaque free value here. -/

namespace Sys2Proof

/-- The launch parameters of 00_scope R7. -/
structure Launch where
  /-- The bytes the loader places over all-zero memory, a later one over an earlier one: MEM0 of 70_reset R222. -/
  image : List (Word × Byte)
  /-- ENTRY_PC, 70_reset R223. -/
  entryPc : Word
  /-- SP_RESET, 70_reset R224. -/
  spReset : Byte
  /-- HALT_PC, 40_dispatch R78: the set of addresses at which a run is final. -/
  haltPc : List Word
  deriving DecidableEq, Repr

/-- The launch that gives every parameter its default: no image, SP_RESET = 0x00 (70_reset R224), HALT_PC empty
(92_eei_decisions, Open parameters). ENTRY_PC has no default in the spec; 0x0000 is the model's (DESIGN CHOICE, log 1). -/
def Launch.default : Launch := { image := [], entryPc := 0x0000, spReset := 0x00, haltPc := [] }

/-- What a cell that memory does not list holds: "a cell the loader did not write holds 0" (70_reset R222). -/
def Config.unlistedByte : Byte := 0x00

end Sys2Proof
end

