-- ==== Sys2Proof/Machine/State.lean ====
section
/-! DEFINITION. The state record of 10_state R20, the reset state of 70_reset R220, and the reasons a step stops. -/

namespace Sys2Proof.Machine

/-- The memory `M` of 10_state R20 and 20_memory R40: the cells that hold something other than the unlisted byte,
as (address, byte) pairs. Its canonical form is `Memory.wf` (Machine/Ops.lean). -/
abbrev Memory := List Host.Cell

/-- The six status flags of 10_state R26. Bits 5 and 4 of the status byte have no storage (10_state R35). -/
structure Flags where
  /-- negative, bit 7 (R34) -/
  n : Bool
  /-- overflow, bit 6 (R33) -/
  v : Bool
  /-- decimal, bit 3 (R32) -/
  d : Bool
  /-- interrupt disable, bit 2 (R31) -/
  i : Bool
  /-- zero, bit 1 (R30) -/
  z : Bool
  /-- carry, bit 0 (R29) -/
  c : Bool
  deriving DecidableEq, Repr

/-- The names of the six flags, for `getFlag` and `setFlag` of 10_state R28. -/
inductive Flag where
  | n | v | d | i | z | c
  deriving DecidableEq, Repr

/-- What the `fault` field records (10_state R36; 60_exceptions R201: the block has exactly one cause, with no number). -/
inductive Cause where
  /-- the opcode byte and the address it was fetched from -/
  | illegalOpcode (op : Byte) (pc : Word)
  deriving DecidableEq, Repr

/-- The state of the block, field by field as 10_state R20 lists it, and beside it the set HALT_PC. -/
structure State where
  /-- accumulator A (R21) -/
  a : Byte
  /-- index register X (R22) -/
  x : Byte
  /-- index register Y (R23) -/
  y : Byte
  /-- stack pointer SP, the low byte of the next free cell of page 1 (R24) -/
  sp : Byte
  /-- program counter PC (R25) -/
  pc : Word
  /-- the six status flags (R26) -/
  flags : Flags
  /-- memory M (20_memory R40) -/
  mem : Memory
  /-- none, or the fault of a faulted state (R36) -/
  fault : Option Cause
  /-- the launch parameter HALT_PC (40_dispatch R78): the MODEL's own field, changed by no step (log 2) -/
  haltPc : List Word
  deriving DecidableEq, Repr

/-- Why a step answers no next state. -/
inductive Fault where
  /-- Raised by the dispatch step alone (40_dispatch R79), for the 105 bytes of 30_encoding R62. `after` is the faulted
  state `s'` of R79: the state the opcode was fetched in, but for its `fault` field. Safe: the model stops where some
  silicon would go on (92 D3). -/
  | illegalOpcode (op : Byte) (pc : Word) (after : State)
  /-- Answered by `step` in a faulted state: "a faulted state takes no step" (60_exceptions R200). Safe. -/
  | noStepFaulted (cause : Cause)
  /-- Answered by `step` in a final state: "a final state takes no step" (40_dispatch R78). Safe; a convention of the
  launch, not a stop of the hardware. -/
  | noStepFinal (pc : Word)
  deriving DecidableEq, Repr

/-- Why an instruction has no meaning. No step of this model answers a refusal: every row of the table has its meaning. -/
inductive Refusal where
  /-- Raised by no arm of `exec`: the form of an arm whose instruction had no meaning yet. Safe. -/
  | notModelled (mnemonic : String)
  deriving DecidableEq, Repr

/-- The reset state of 70_reset R220: A, X, Y and every flag 0 (R221, R225), no fault, memory all zero (R222), SP the
default 0x00 of SP_RESET (R224), PC the model's value of ENTRY_PC (R223; DESIGN CHOICE, log 1), HALT_PC empty. -/
def State.reset : State where
  a := 0x00
  x := 0x00
  y := 0x00
  sp := Launch.default.spReset
  pc := Launch.default.entryPc
  flags := { n := false, v := false, d := false, i := false, z := false, c := false }
  mem := []
  fault := none
  haltPc := Launch.default.haltPc

end Sys2Proof.Machine
end

