-- ==== Sys2Proof/Machine/Flags.lean ====
section
/-! DEFINITION. The status flags: reading and writing one (10_state R28), `setNZ` (R27), the status byte (R26, R35),
and every flag an ALU result sets (42_arithmetic R110, R111; 44_logic_compare R138, R142; 45_shift_rotate R150–R153). -/

namespace Sys2Proof.Machine

/-- `getFlag` of 10_state R28. -/
def Flags.get (p : Flags) : Flag → Bool
  | .n => p.n
  | .v => p.v
  | .d => p.d
  | .i => p.i
  | .z => p.z
  | .c => p.c

/-- `setFlag` of 10_state R28: writes the one flag. -/
def Flags.set (p : Flags) (f : Flag) (b : Bool) : Flags :=
  match f with
  | .n => { p with n := b }
  | .v => { p with v := b }
  | .d => { p with d := b }
  | .i => { p with i := b }
  | .z => { p with z := b }
  | .c => { p with c := b }

/-- The status byte `P` of 10_state R26: `N<<7 | V<<6 | D<<3 | I<<2 | Z<<1 | C`, bits 5 and 4 zero. -/
def Flags.toByte (p : Flags) : Byte :=
  BitVec.ofBool p.n ++ BitVec.ofBool p.v ++ 0b00#2 ++ BitVec.ofBool p.d ++ BitVec.ofBool p.i ++ BitVec.ofBool p.z
    ++ BitVec.ofBool p.c

/-- The byte PHP and BRK push: `P | 0x30`, the unused bits 5 and 4 set (10_state R35). -/
def Flags.pushed (p : Flags) : Byte := p.toByte ||| 0x30

/-- The flags PLP and RTI take from the pulled byte; bits 5 and 4 are discarded (47_stack R174; 48_control R194). -/
def Flags.ofByte (v : Byte) : Flags where
  n := v.getLsbD 7
  v := v.getLsbD 6
  d := v.getLsbD 3
  i := v.getLsbD 2
  z := v.getLsbD 1
  c := v.getLsbD 0

/-- Replace all six flags. -/
def State.setFlags (s : State) (p : Flags) : State := { s with flags := p }

/-- `F <- b` of 10_state R28. -/
def State.setFlag (s : State) (f : Flag) (b : Bool) : State := s.setFlags (s.flags.set f b)

/-- The flag `f` of the state, `getFlag` of 10_state R28. -/
def State.flag (s : State) (f : Flag) : Bool := s.flags.get f

/-- `setNZ(r)` of 10_state R27: `Z <- (r == 0); N <- r[7]`. -/
def State.setNZ (s : State) (r : Byte) : State := (s.setFlag .z (r == 0x00)).setFlag .n (r.getLsbD 7)

/-- What an 8-bit ALU operation yields: the truncated result, the carry and the overflow. -/
structure AluResult where
  value : Byte
  carry : Bool
  overflow : Bool
  deriving DecidableEq, Repr

/-- The sum of 42_arithmetic R110, on naturals, truncated at the end; D is not read (R114). -/
def adcResult (a m : Byte) (c : Bool) : AluResult :=
  let sum := a.toNat + m.toNat + c.toNat
  let r := BitVec.ofNat 8 sum
  { value := r, carry := decide (255 < sum), overflow := ((~~~(a ^^^ m)) &&& (a ^^^ r) &&& 0x80) != 0x00 }

/-- The difference of 42_arithmetic R111, on integers, truncated at the end: the canonical overflow (90 C6); D is not
read (R114). -/
def sbcResult (a m : Byte) (c : Bool) : AluResult :=
  let borrow : Int := 1 - (c.toNat : Int)
  let diff : Int := (a.toNat : Int) - (m.toNat : Int) - borrow
  let r := BitVec.ofInt 8 diff
  { value := r, carry := decide (0 ≤ diff), overflow := ((a ^^^ r) &&& (a ^^^ m) &&& 0x80) != 0x00 }

/-- `Compare(reg, m)` of 44_logic_compare R138: N and Z from the 8-bit difference, `C <- (reg >= m)` unsigned. -/
def State.compare (s : State) (reg m : Byte) : State := (s.setNZ (reg - m)).setFlag .c (decide (m.toNat ≤ reg.toNat))

/-- The flags of BIT (44_logic_compare R142): Z from `A & m`, V and N from bits 6 and 7 of `m`. -/
def State.bitTest (s : State) (m : Byte) : State :=
  ((s.setFlag .z ((s.a &&& m) == 0x00)).setFlag .v (m.getLsbD 6)).setFlag .n (m.getLsbD 7)

/-- What a shift or rotate yields: the new value and the bit shifted out. -/
structure ShiftResult where
  value : Byte
  carry : Bool
  deriving DecidableEq, Repr

/-- 45_shift_rotate R150; the old carry is not used. -/
def aslResult (v : Byte) (_c : Bool) : ShiftResult := { value := v <<< 1, carry := v.getLsbD 7 }

/-- 45_shift_rotate R151; the old carry is not used. -/
def lsrResult (v : Byte) (_c : Bool) : ShiftResult := { value := v >>> 1, carry := v.getLsbD 0 }

/-- 45_shift_rotate R152: the old carry enters at bit 0, bit 7 leaves, in every mode (90 C5). -/
def rolResult (v : Byte) (c : Bool) : ShiftResult :=
  { value := (v <<< 1) ||| (BitVec.ofBool c).setWidth 8, carry := v.getLsbD 7 }

/-- 45_shift_rotate R153: the old carry enters at bit 7, bit 0 leaves. -/
def rorResult (v : Byte) (c : Bool) : ShiftResult :=
  { value := (v >>> 1) ||| ((BitVec.ofBool c).setWidth 8 <<< 7), carry := v.getLsbD 0 }

end Sys2Proof.Machine
end

