-- ==== Sys2Proof/Machine/Ops.lean ====
section
/-! DEFINITION. The named operations over memory and registers: MemRead and MemWrite (00_scope R12), the word helpers (R13),
Push and Pull (47_stack R170), trap entry and trap return (48_control R193, R194; 60_exceptions R206, R207), and the final and
faulted states (40_dispatch R75, R78). -/

namespace Sys2Proof.Machine

/-! ### Memory -/

/-- The byte at an address; an unlisted one holds `Config.unlistedByte`. -/
def Memory.read : Memory → Nat → Byte
  | [], _ => Config.unlistedByte
  | (k, v) :: rest, addr => if k = addr then v else Memory.read rest addr

/-- Drop every entry of an address. -/
def Memory.erase (m : Memory) (addr : Nat) : Memory := m.filter (fun cell => cell.1 != addr)

/-- Put an entry before the first one with a higher address. -/
def Memory.insert : Memory → Nat → Byte → Memory
  | [], addr, v => [(addr, v)]
  | (k, w) :: rest, addr, v => if addr < k then (addr, v) :: (k, w) :: rest else (k, w) :: Memory.insert rest addr v

/-- The memory in which `addr` holds `v`: writing the unlisted byte removes the entry. -/
def Memory.write (m : Memory) (addr : Nat) (v : Byte) : Memory :=
  if v = Config.unlistedByte then m.erase addr else (m.erase addr).insert addr v

/-- Canonical from address `lo` on: addresses at least `lo`, below 65536 and strictly rising, no unlisted byte listed. -/
def Memory.wfFrom (lo : Nat) : Memory → Bool
  | [] => true
  | (k, v) :: rest => decide (lo ≤ k) && decide (k < 65536) && (v != Config.unlistedByte) && Memory.wfFrom (k + 1) rest

/-- The canonical form of memory: equal memories are equal lists. -/
def Memory.wf (m : Memory) : Bool := m.wfFrom 0

/-- Overlay an image on memory, its bytes in order (the loader of 70_reset R222). -/
def Memory.load (m : Memory) : List (Word × Byte) → Memory
  | [] => m
  | (addr, v) :: rest => Memory.load (m.write addr.toNat v) rest

/-! ### Registers: one writer per field -/

/-- `A <- v`. -/
def State.setA (s : State) (v : Byte) : State := { s with a := v }

/-- `X <- v`. -/
def State.setX (s : State) (v : Byte) : State := { s with x := v }

/-- `Y <- v`. -/
def State.setY (s : State) (v : Byte) : State := { s with y := v }

/-- `SP <- v`. -/
def State.setSp (s : State) (v : Byte) : State := { s with sp := v }

/-- `PC <- target`. -/
def State.setPc (s : State) (w : Word) : State := { s with pc := w }

/-- Replace memory. -/
def State.setMem (s : State) (m : Memory) : State := { s with mem := m }

/-- `fault <- cause` (10_state R36). -/
def State.setFault (s : State) (cause : Cause) : State := { s with fault := some cause }

/-! ### Memory accesses of the state -/

/-- `MemRead(addr, 1)` of 00_scope R12. -/
def State.read (s : State) (addr : Word) : Byte := s.mem.read addr.toNat

/-- `MemWrite(addr, 1, v)` of 00_scope R12. -/
def State.write (s : State) (addr : Word) (v : Byte) : State := s.setMem (s.mem.write addr.toNat v)

/-- `Read16(a)` of 00_scope R13: the high byte from the next address modulo 65536. -/
def State.read16 (s : State) (addr : Word) : Word := word (s.read addr) (s.read (addr + 1))

/-- `ZpRead16(z)` of 00_scope R13: the high byte from the next address modulo 256. -/
def State.zpRead16 (s : State) (z : Byte) : Word := word (s.read (zext16 z)) (s.read (zext16 (z + 1)))

/-! ### The stack (47_stack R170) -/

/-- The cell of page 1 that SP names: `0x0100 + SP`. -/
def stackAddr (sp : Byte) : Word := 0x0100 + zext16 sp

/-- `Push(v)`: write, then decrement SP modulo 256. -/
def State.push (s : State) (v : Byte) : State := (s.write (stackAddr s.sp) v).setSp (s.sp - 1)

/-- The state after `Pull()`: SP incremented modulo 256. -/
def State.pulled (s : State) : State := s.setSp (s.sp + 1)

/-- The byte `Pull()` returns: the one at the incremented SP. -/
def State.pullByte (s : State) : Byte := s.read (stackAddr (s.sp + 1))

/-- Push a word, its high byte first (48_control R191, R193). -/
def State.pushWord (s : State) (w : Word) : State := (s.push (highByte w)).push (lowByte w)

/-- The state after the two pulls of a return address. -/
def State.pulledWord (s : State) : State := s.pulled.pulled

/-- The return address that two pulls give, low byte first (48_control R192, R194). -/
def State.pullWord (s : State) : Word := word s.pullByte s.pulled.pullByte

/-! ### Trap entry and return -/

/-- The BRK/IRQ vector, the only one the block reads (20_memory R49). -/
def brkVector : Word := 0xFFFE

/-- Trap entry (48_control R193; 60_exceptions R206): push the return address and `P | 0x30`, set I, go to the vector.
D is not cleared. -/
def State.enterTrap (s : State) (ret : Word) : State :=
  let saved := ((s.pushWord ret).push s.flags.pushed).setFlag .i true
  saved.setPc (saved.read16 brkVector)

/-- Trap return (48_control R194; 60_exceptions R207): pull the flags, then the return address, with no adjustment. -/
def State.returnFromTrap (s : State) : State :=
  let restored := s.pulled.setFlags (Flags.ofByte s.pullByte)
  restored.pulledWord.setPc restored.pullWord

/-! ### Final and faulted states -/

/-- Final (40_dispatch R78): no fault, and PC in HALT_PC. -/
def State.isFinal (s : State) : Bool := s.fault.isNone && s.haltPc.contains s.pc

/-- Faulted (60_exceptions R200). -/
def State.isFaulted (s : State) : Bool := s.fault.isSome

/-- The state a launch starts in: 70_reset R220 for any value of the four parameters. -/
def State.launch (l : Launch) : State :=
  { State.reset with
    sp := l.spReset
    pc := l.entryPc
    mem := Memory.load [] l.image
    haltPc := l.haltPc }

end Sys2Proof.Machine
end

