-- ==== Sys2Proof/Syntax.lean ====
section
/-! DEFINITION. The instruction set as syntax: the 13 addressing modes (30_encoding R58), the 56 mnemonics (00_scope R2) and
`Instr`, one constructor per row of spec/opcode_table.json (30_encoding R60, R74), its operand bytes already assembled
(30_encoding R57): a byte in the 2-byte forms, the little-endian word in the 3-byte forms. -/

namespace Sys2Proof

/-- The 13 addressing modes of 30_encoding R58, under the ids of that rule. -/
inductive Mode where
  | imp | acc | imm | zp | zpx | zpy | abs | absx | absy | ind | indx | indy | rel
  deriving DecidableEq, Repr

/-- The instruction length of a mode (30_encoding R55, R58). -/
def Mode.length : Mode → Nat
  | .imp | .acc => 1
  | .imm | .zp | .zpx | .zpy | .indx | .indy | .rel => 2
  | .abs | .absx | .absy | .ind => 3

/-- The label string of a mode (30_encoding R58, R70). -/
def Mode.label : Mode → String
  | .imp => "implied"
  | .acc => "accumulator"
  | .imm => "immediate"
  | .zp => "zeropage"
  | .zpx => "zeropage,X"
  | .zpy => "zeropage,Y"
  | .abs => "absolute"
  | .absx => "absolute,X"
  | .absy => "absolute,Y"
  | .ind => "indirect"
  | .indx => "(indirect,X)"
  | .indy => "(indirect),Y"
  | .rel => "relative"

/-- The eight modes that address a memory cell, each with its operand (40_dispatch R85–R92). -/
inductive MemMode where
  | zp (z : Byte)
  | zpx (z : Byte)
  | zpy (z : Byte)
  | abs (w : Word)
  | absx (w : Word)
  | absy (w : Word)
  | indx (z : Byte)
  | indy (z : Byte)
  deriving DecidableEq, Repr

/-- What `ReadOperand` reads from (40_dispatch R97). -/
inductive Operand where
  | imm (v : Byte)
  | acc
  | mem (m : MemMode)
  deriving DecidableEq, Repr

/-- What `WriteBack` writes to (40_dispatch R98). -/
inductive Place where
  | acc
  | mem (m : MemMode)
  deriving DecidableEq, Repr

/-- A place, read as an operand. -/
def Place.operand : Place → Operand
  | .acc => .acc
  | .mem m => .mem m

/-- The operand field of an instruction. -/
inductive Form where
  | imp
  | data (o : Operand)
  /-- the pointer of JMP indirect (40_dispatch R93) -/
  | ind (w : Word)
  /-- the displacement byte of a branch (40_dispatch R94) -/
  | rel (d : Byte)
  deriving DecidableEq, Repr

/-- The addressing mode of a form. -/
def Form.mode : Form → Mode
  | .imp => .imp
  | .data (.imm _) => .imm
  | .data .acc => .acc
  | .data (.mem (.zp _)) => .zp
  | .data (.mem (.zpx _)) => .zpx
  | .data (.mem (.zpy _)) => .zpy
  | .data (.mem (.abs _)) => .abs
  | .data (.mem (.absx _)) => .absx
  | .data (.mem (.absy _)) => .absy
  | .data (.mem (.indx _)) => .indx
  | .data (.mem (.indy _)) => .indy
  | .ind _ => .ind
  | .rel _ => .rel

/-- The 56 mnemonics (00_scope R2), by the family files 41 to 48. -/
inductive Mnemonic where
  | lda | ldx | ldy | sta | stx | sty
  | adc | sbc | inc | dec | inx | iny | dex | dey
  | tax | tay | txa | tya | tsx | txs
  | and | eor | ora | cmp | cpx | cpy | bit
  | asl | lsr | rol | ror
  | clc | cld | cli | clv | sec | sed | sei | nop
  | pha | php | pla | plp
  | bcc | bcs | beq | bmi | bne | bpl | bvc | bvs | jmp | jsr | rts | brk | rti
  deriving DecidableEq, Repr

/-- The mnemonic's text, as spec/opcode_table.json spells it. -/
def Mnemonic.text : Mnemonic → String
  | .lda => "LDA"
  | .ldx => "LDX"
  | .ldy => "LDY"
  | .sta => "STA"
  | .stx => "STX"
  | .sty => "STY"
  | .adc => "ADC"
  | .sbc => "SBC"
  | .inc => "INC"
  | .dec => "DEC"
  | .inx => "INX"
  | .iny => "INY"
  | .dex => "DEX"
  | .dey => "DEY"
  | .tax => "TAX"
  | .tay => "TAY"
  | .txa => "TXA"
  | .tya => "TYA"
  | .tsx => "TSX"
  | .txs => "TXS"
  | .and => "AND"
  | .eor => "EOR"
  | .ora => "ORA"
  | .cmp => "CMP"
  | .cpx => "CPX"
  | .cpy => "CPY"
  | .bit => "BIT"
  | .asl => "ASL"
  | .lsr => "LSR"
  | .rol => "ROL"
  | .ror => "ROR"
  | .clc => "CLC"
  | .cld => "CLD"
  | .cli => "CLI"
  | .clv => "CLV"
  | .sec => "SEC"
  | .sed => "SED"
  | .sei => "SEI"
  | .nop => "NOP"
  | .pha => "PHA"
  | .php => "PHP"
  | .pla => "PLA"
  | .plp => "PLP"
  | .bcc => "BCC"
  | .bcs => "BCS"
  | .beq => "BEQ"
  | .bmi => "BMI"
  | .bne => "BNE"
  | .bpl => "BPL"
  | .bvc => "BVC"
  | .bvs => "BVS"
  | .jmp => "JMP"
  | .jsr => "JSR"
  | .rts => "RTS"
  | .brk => "BRK"
  | .rti => "RTI"

/-- The instructions: one constructor per row of spec/opcode_table.json. `v` is an immediate byte, `z` a zero-page address,
`w` the word `b1 + 256*b2`, `d` a displacement byte. -/
inductive Instr where
  | ldaImm (v : Byte)
  | ldaZp (z : Byte)
  | ldaZpx (z : Byte)
  | ldaAbs (w : Word)
  | ldaAbsx (w : Word)
  | ldaAbsy (w : Word)
  | ldaIndx (z : Byte)
  | ldaIndy (z : Byte)
  | ldxImm (v : Byte)
  | ldxZp (z : Byte)
  | ldxZpy (z : Byte)
  | ldxAbs (w : Word)
  | ldxAbsy (w : Word)
  | ldyImm (v : Byte)
  | ldyZp (z : Byte)
  | ldyZpx (z : Byte)
  | ldyAbs (w : Word)
  | ldyAbsx (w : Word)
  | staZp (z : Byte)
  | staZpx (z : Byte)
  | staAbs (w : Word)
  | staAbsx (w : Word)
  | staAbsy (w : Word)
  | staIndx (z : Byte)
  | staIndy (z : Byte)
  | stxZp (z : Byte)
  | stxZpy (z : Byte)
  | stxAbs (w : Word)
  | styZp (z : Byte)
  | styZpx (z : Byte)
  | styAbs (w : Word)
  | adcImm (v : Byte)
  | adcZp (z : Byte)
  | adcZpx (z : Byte)
  | adcAbs (w : Word)
  | adcAbsx (w : Word)
  | adcAbsy (w : Word)
  | adcIndx (z : Byte)
  | adcIndy (z : Byte)
  | sbcImm (v : Byte)
  | sbcZp (z : Byte)
  | sbcZpx (z : Byte)
  | sbcAbs (w : Word)
  | sbcAbsx (w : Word)
  | sbcAbsy (w : Word)
  | sbcIndx (z : Byte)
  | sbcIndy (z : Byte)
  | incZp (z : Byte)
  | incZpx (z : Byte)
  | incAbs (w : Word)
  | incAbsx (w : Word)
  | decZp (z : Byte)
  | decZpx (z : Byte)
  | decAbs (w : Word)
  | decAbsx (w : Word)
  | inx
  | iny
  | dex
  | dey
  | tax
  | tay
  | txa
  | tya
  | tsx
  | txs
  | andImm (v : Byte)
  | andZp (z : Byte)
  | andZpx (z : Byte)
  | andAbs (w : Word)
  | andAbsx (w : Word)
  | andAbsy (w : Word)
  | andIndx (z : Byte)
  | andIndy (z : Byte)
  | eorImm (v : Byte)
  | eorZp (z : Byte)
  | eorZpx (z : Byte)
  | eorAbs (w : Word)
  | eorAbsx (w : Word)
  | eorAbsy (w : Word)
  | eorIndx (z : Byte)
  | eorIndy (z : Byte)
  | oraImm (v : Byte)
  | oraZp (z : Byte)
  | oraZpx (z : Byte)
  | oraAbs (w : Word)
  | oraAbsx (w : Word)
  | oraAbsy (w : Word)
  | oraIndx (z : Byte)
  | oraIndy (z : Byte)
  | cmpImm (v : Byte)
  | cmpZp (z : Byte)
  | cmpZpx (z : Byte)
  | cmpAbs (w : Word)
  | cmpAbsx (w : Word)
  | cmpAbsy (w : Word)
  | cmpIndx (z : Byte)
  | cmpIndy (z : Byte)
  | cpxImm (v : Byte)
  | cpxZp (z : Byte)
  | cpxAbs (w : Word)
  | cpyImm (v : Byte)
  | cpyZp (z : Byte)
  | cpyAbs (w : Word)
  | bitZp (z : Byte)
  | bitAbs (w : Word)
  | aslAcc
  | aslZp (z : Byte)
  | aslZpx (z : Byte)
  | aslAbs (w : Word)
  | aslAbsx (w : Word)
  | lsrAcc
  | lsrZp (z : Byte)
  | lsrZpx (z : Byte)
  | lsrAbs (w : Word)
  | lsrAbsx (w : Word)
  | rolAcc
  | rolZp (z : Byte)
  | rolZpx (z : Byte)
  | rolAbs (w : Word)
  | rolAbsx (w : Word)
  | rorAcc
  | rorZp (z : Byte)
  | rorZpx (z : Byte)
  | rorAbs (w : Word)
  | rorAbsx (w : Word)
  | clc
  | cld
  | cli
  | clv
  | sec
  | sed
  | sei
  | nop
  | pha
  | php
  | pla
  | plp
  | bcc (d : Byte)
  | bcs (d : Byte)
  | beq (d : Byte)
  | bmi (d : Byte)
  | bne (d : Byte)
  | bpl (d : Byte)
  | bvc (d : Byte)
  | bvs (d : Byte)
  | jmpAbs (w : Word)
  | jmpInd (w : Word)
  | jsr (w : Word)
  | rts
  | brk
  | rti
  deriving DecidableEq, Repr

/-- The mnemonic of an instruction (30_encoding R74, column mnemonic). -/
def Instr.mnemonic : Instr → Mnemonic
  | .ldaImm _ | .ldaZp _ | .ldaZpx _ | .ldaAbs _ | .ldaAbsx _ | .ldaAbsy _ | .ldaIndx _ | .ldaIndy _ => .lda
  | .ldxImm _ | .ldxZp _ | .ldxZpy _ | .ldxAbs _ | .ldxAbsy _ => .ldx
  | .ldyImm _ | .ldyZp _ | .ldyZpx _ | .ldyAbs _ | .ldyAbsx _ => .ldy
  | .staZp _ | .staZpx _ | .staAbs _ | .staAbsx _ | .staAbsy _ | .staIndx _ | .staIndy _ => .sta
  | .stxZp _ | .stxZpy _ | .stxAbs _ => .stx
  | .styZp _ | .styZpx _ | .styAbs _ => .sty
  | .adcImm _ | .adcZp _ | .adcZpx _ | .adcAbs _ | .adcAbsx _ | .adcAbsy _ | .adcIndx _ | .adcIndy _ => .adc
  | .sbcImm _ | .sbcZp _ | .sbcZpx _ | .sbcAbs _ | .sbcAbsx _ | .sbcAbsy _ | .sbcIndx _ | .sbcIndy _ => .sbc
  | .incZp _ | .incZpx _ | .incAbs _ | .incAbsx _ => .inc
  | .decZp _ | .decZpx _ | .decAbs _ | .decAbsx _ => .dec
  | .inx => .inx
  | .iny => .iny
  | .dex => .dex
  | .dey => .dey
  | .tax => .tax
  | .tay => .tay
  | .txa => .txa
  | .tya => .tya
  | .tsx => .tsx
  | .txs => .txs
  | .andImm _ | .andZp _ | .andZpx _ | .andAbs _ | .andAbsx _ | .andAbsy _ | .andIndx _ | .andIndy _ => .and
  | .eorImm _ | .eorZp _ | .eorZpx _ | .eorAbs _ | .eorAbsx _ | .eorAbsy _ | .eorIndx _ | .eorIndy _ => .eor
  | .oraImm _ | .oraZp _ | .oraZpx _ | .oraAbs _ | .oraAbsx _ | .oraAbsy _ | .oraIndx _ | .oraIndy _ => .ora
  | .cmpImm _ | .cmpZp _ | .cmpZpx _ | .cmpAbs _ | .cmpAbsx _ | .cmpAbsy _ | .cmpIndx _ | .cmpIndy _ => .cmp
  | .cpxImm _ | .cpxZp _ | .cpxAbs _ => .cpx
  | .cpyImm _ | .cpyZp _ | .cpyAbs _ => .cpy
  | .bitZp _ | .bitAbs _ => .bit
  | .aslAcc | .aslZp _ | .aslZpx _ | .aslAbs _ | .aslAbsx _ => .asl
  | .lsrAcc | .lsrZp _ | .lsrZpx _ | .lsrAbs _ | .lsrAbsx _ => .lsr
  | .rolAcc | .rolZp _ | .rolZpx _ | .rolAbs _ | .rolAbsx _ => .rol
  | .rorAcc | .rorZp _ | .rorZpx _ | .rorAbs _ | .rorAbsx _ => .ror
  | .clc => .clc
  | .cld => .cld
  | .cli => .cli
  | .clv => .clv
  | .sec => .sec
  | .sed => .sed
  | .sei => .sei
  | .nop => .nop
  | .pha => .pha
  | .php => .php
  | .pla => .pla
  | .plp => .plp
  | .bcc _ => .bcc
  | .bcs _ => .bcs
  | .beq _ => .beq
  | .bmi _ => .bmi
  | .bne _ => .bne
  | .bpl _ => .bpl
  | .bvc _ => .bvc
  | .bvs _ => .bvs
  | .jmpAbs _ | .jmpInd _ => .jmp
  | .jsr _ => .jsr
  | .rts => .rts
  | .brk => .brk
  | .rti => .rti

/-- The operand field of an instruction (30_encoding R74, column mode). -/
def Instr.form : Instr → Form
  | .ldaImm v => .data (.imm v)
  | .ldaZp z => .data (.mem (.zp z))
  | .ldaZpx z => .data (.mem (.zpx z))
  | .ldaAbs w => .data (.mem (.abs w))
  | .ldaAbsx w => .data (.mem (.absx w))
  | .ldaAbsy w => .data (.mem (.absy w))
  | .ldaIndx z => .data (.mem (.indx z))
  | .ldaIndy z => .data (.mem (.indy z))
  | .ldxImm v => .data (.imm v)
  | .ldxZp z => .data (.mem (.zp z))
  | .ldxZpy z => .data (.mem (.zpy z))
  | .ldxAbs w => .data (.mem (.abs w))
  | .ldxAbsy w => .data (.mem (.absy w))
  | .ldyImm v => .data (.imm v)
  | .ldyZp z => .data (.mem (.zp z))
  | .ldyZpx z => .data (.mem (.zpx z))
  | .ldyAbs w => .data (.mem (.abs w))
  | .ldyAbsx w => .data (.mem (.absx w))
  | .staZp z => .data (.mem (.zp z))
  | .staZpx z => .data (.mem (.zpx z))
  | .staAbs w => .data (.mem (.abs w))
  | .staAbsx w => .data (.mem (.absx w))
  | .staAbsy w => .data (.mem (.absy w))
  | .staIndx z => .data (.mem (.indx z))
  | .staIndy z => .data (.mem (.indy z))
  | .stxZp z => .data (.mem (.zp z))
  | .stxZpy z => .data (.mem (.zpy z))
  | .stxAbs w => .data (.mem (.abs w))
  | .styZp z => .data (.mem (.zp z))
  | .styZpx z => .data (.mem (.zpx z))
  | .styAbs w => .data (.mem (.abs w))
  | .adcImm v => .data (.imm v)
  | .adcZp z => .data (.mem (.zp z))
  | .adcZpx z => .data (.mem (.zpx z))
  | .adcAbs w => .data (.mem (.abs w))
  | .adcAbsx w => .data (.mem (.absx w))
  | .adcAbsy w => .data (.mem (.absy w))
  | .adcIndx z => .data (.mem (.indx z))
  | .adcIndy z => .data (.mem (.indy z))
  | .sbcImm v => .data (.imm v)
  | .sbcZp z => .data (.mem (.zp z))
  | .sbcZpx z => .data (.mem (.zpx z))
  | .sbcAbs w => .data (.mem (.abs w))
  | .sbcAbsx w => .data (.mem (.absx w))
  | .sbcAbsy w => .data (.mem (.absy w))
  | .sbcIndx z => .data (.mem (.indx z))
  | .sbcIndy z => .data (.mem (.indy z))
  | .incZp z => .data (.mem (.zp z))
  | .incZpx z => .data (.mem (.zpx z))
  | .incAbs w => .data (.mem (.abs w))
  | .incAbsx w => .data (.mem (.absx w))
  | .decZp z => .data (.mem (.zp z))
  | .decZpx z => .data (.mem (.zpx z))
  | .decAbs w => .data (.mem (.abs w))
  | .decAbsx w => .data (.mem (.absx w))
  | .andImm v => .data (.imm v)
  | .andZp z => .data (.mem (.zp z))
  | .andZpx z => .data (.mem (.zpx z))
  | .andAbs w => .data (.mem (.abs w))
  | .andAbsx w => .data (.mem (.absx w))
  | .andAbsy w => .data (.mem (.absy w))
  | .andIndx z => .data (.mem (.indx z))
  | .andIndy z => .data (.mem (.indy z))
  | .eorImm v => .data (.imm v)
  | .eorZp z => .data (.mem (.zp z))
  | .eorZpx z => .data (.mem (.zpx z))
  | .eorAbs w => .data (.mem (.abs w))
  | .eorAbsx w => .data (.mem (.absx w))
  | .eorAbsy w => .data (.mem (.absy w))
  | .eorIndx z => .data (.mem (.indx z))
  | .eorIndy z => .data (.mem (.indy z))
  | .oraImm v => .data (.imm v)
  | .oraZp z => .data (.mem (.zp z))
  | .oraZpx z => .data (.mem (.zpx z))
  | .oraAbs w => .data (.mem (.abs w))
  | .oraAbsx w => .data (.mem (.absx w))
  | .oraAbsy w => .data (.mem (.absy w))
  | .oraIndx z => .data (.mem (.indx z))
  | .oraIndy z => .data (.mem (.indy z))
  | .cmpImm v => .data (.imm v)
  | .cmpZp z => .data (.mem (.zp z))
  | .cmpZpx z => .data (.mem (.zpx z))
  | .cmpAbs w => .data (.mem (.abs w))
  | .cmpAbsx w => .data (.mem (.absx w))
  | .cmpAbsy w => .data (.mem (.absy w))
  | .cmpIndx z => .data (.mem (.indx z))
  | .cmpIndy z => .data (.mem (.indy z))
  | .cpxImm v => .data (.imm v)
  | .cpxZp z => .data (.mem (.zp z))
  | .cpxAbs w => .data (.mem (.abs w))
  | .cpyImm v => .data (.imm v)
  | .cpyZp z => .data (.mem (.zp z))
  | .cpyAbs w => .data (.mem (.abs w))
  | .bitZp z => .data (.mem (.zp z))
  | .bitAbs w => .data (.mem (.abs w))
  | .aslAcc => .data .acc
  | .aslZp z => .data (.mem (.zp z))
  | .aslZpx z => .data (.mem (.zpx z))
  | .aslAbs w => .data (.mem (.abs w))
  | .aslAbsx w => .data (.mem (.absx w))
  | .lsrAcc => .data .acc
  | .lsrZp z => .data (.mem (.zp z))
  | .lsrZpx z => .data (.mem (.zpx z))
  | .lsrAbs w => .data (.mem (.abs w))
  | .lsrAbsx w => .data (.mem (.absx w))
  | .rolAcc => .data .acc
  | .rolZp z => .data (.mem (.zp z))
  | .rolZpx z => .data (.mem (.zpx z))
  | .rolAbs w => .data (.mem (.abs w))
  | .rolAbsx w => .data (.mem (.absx w))
  | .rorAcc => .data .acc
  | .rorZp z => .data (.mem (.zp z))
  | .rorZpx z => .data (.mem (.zpx z))
  | .rorAbs w => .data (.mem (.abs w))
  | .rorAbsx w => .data (.mem (.absx w))
  | .bcc d => .rel d
  | .bcs d => .rel d
  | .beq d => .rel d
  | .bmi d => .rel d
  | .bne d => .rel d
  | .bpl d => .rel d
  | .bvc d => .rel d
  | .bvs d => .rel d
  | .jmpAbs w => .data (.mem (.abs w))
  | .jmpInd w => .ind w
  | .jsr w => .data (.mem (.abs w))
  | .inx | .iny | .dex | .dey | .tax | .tay | .txa | .tya | .tsx
  | .txs | .clc | .cld | .cli | .clv | .sec | .sed | .sei | .nop
  | .pha | .php | .pla | .plp | .rts | .brk | .rti => .imp

/-- The addressing mode of an instruction. -/
def Instr.mode (i : Instr) : Mode := i.form.mode

end Sys2Proof
end

