-- ==== Sys2Proof/Machine/Operands.lean ====
section
/-! DEFINITION. The addressing resolver (40_dispatch R83–R96) and the operand read and write-back (R97, R98). -/

namespace Sys2Proof.Machine

/-- The effective address `EA(mode)` of the eight memory modes (40_dispatch R85–R92). Zero-page sums are 8-bit sums, so
they wrap within the zero page; word sums wrap modulo 65536. -/
def ea (m : MemMode) (s : State) : Word :=
  match m with
  | .zp z => zext16 z
  | .zpx z => zext16 (z + s.x)
  | .zpy z => zext16 (z + s.y)
  | .abs w => w
  | .absx w => w + zext16 s.x
  | .absy w => w + zext16 s.y
  | .indx z => s.zpRead16 (z + s.x)
  | .indy z => s.zpRead16 z + zext16 s.y

/-- `ReadOperand(mode)` (40_dispatch R97): the immediate byte, A, or the byte at the effective address. -/
def readOperand (o : Operand) (s : State) : Byte :=
  match o with
  | .imm v => v
  | .acc => s.a
  | .mem m => s.read (ea m s)

/-- `WriteBack(mode, v)` (40_dispatch R98): to A, or to the effective address, the same one the read used. -/
def writeBack (p : Place) (v : Byte) (s : State) : State :=
  match p with
  | .acc => s.setA v
  | .mem m => s.write (ea m s) v

/-- The address of the high byte of a JMP-indirect pointer: `(ptr & 0xFF00) + ((ptr + 1) mod 256)` (40_dispatch R93),
which does not carry into the next page. -/
def pointerHighAddr (ptr : Word) : Word := word (lowByte ptr + 1) (highByte ptr)

/-- The target of JMP indirect (40_dispatch R93). -/
def indirectTarget (ptr : Word) (s : State) : Word := word (s.read ptr) (s.read (pointerHighAddr ptr))

/-- The target of a branch: `(PC + sext_8(b1)) mod 65536`, PC the address of the next instruction (40_dispatch R94). -/
def relativeTarget (d : Byte) (s : State) : Word := s.pc + sext16 d

end Sys2Proof.Machine
end

