-- ==== Sys2Proof/Machine/Arithmetic.lean ====
section
/-! DEFINITION. ADC, SBC, increment and decrement (42_arithmetic R110–R121).
The operations the forms share come first, then one meaning per instruction. PC already holds the address of the next
instruction (00_scope R15). -/

namespace Sys2Proof.Machine

/-- `A <- r; setNZ(A)`, with the carry and overflow of an addition or subtraction (42_arithmetic R110, R111). -/
def State.takeAlu (s : State) (r : AluResult) : State :=
  (((s.setFlag .c r.carry).setFlag .v r.overflow).setA r.value).setNZ r.value

/-- ADC (R110). -/
def adc (o : Operand) (s : State) : State := s.takeAlu (adcResult s.a (readOperand o s) s.flags.c)

/-- SBC (R111). -/
def sbc (o : Operand) (s : State) : State := s.takeAlu (sbcResult s.a (readOperand o s) s.flags.c)

/-- INC (R115): one read and one write of the cell. -/
def inc (m : MemMode) (s : State) : State :=
  let r := readOperand (.mem m) s + 1
  (writeBack (.mem m) r s).setNZ r

/-- DEC (R116). -/
def dec (m : MemMode) (s : State) : State :=
  let r := readOperand (.mem m) s - 1
  (writeBack (.mem m) r s).setNZ r

/-- INX (R117) and DEX (R119): `X <- r; setNZ(X)`. -/
def State.takeX (s : State) (r : Byte) : State := (s.setX r).setNZ r

/-- INY (R118) and DEY (R120): `Y <- r; setNZ(Y)`. -/
def State.takeY (s : State) (r : Byte) : State := (s.setY r).setNZ r

/-- ADC immediate, R110. -/
def execAdcImm (v : Byte) (s : State) : Host.Outcome State Fault Refusal :=
  .next (adc (.imm v) s)

/-- ADC zeropage, R110. -/
def execAdcZp (z : Byte) (s : State) : Host.Outcome State Fault Refusal :=
  .next (adc (.mem (.zp z)) s)

/-- ADC zeropage,X, R110. -/
def execAdcZpx (z : Byte) (s : State) : Host.Outcome State Fault Refusal :=
  .next (adc (.mem (.zpx z)) s)

/-- ADC absolute, R110. -/
def execAdcAbs (w : Word) (s : State) : Host.Outcome State Fault Refusal :=
  .next (adc (.mem (.abs w)) s)

/-- ADC absolute,X, R110. -/
def execAdcAbsx (w : Word) (s : State) : Host.Outcome State Fault Refusal :=
  .next (adc (.mem (.absx w)) s)

/-- ADC absolute,Y, R110. -/
def execAdcAbsy (w : Word) (s : State) : Host.Outcome State Fault Refusal :=
  .next (adc (.mem (.absy w)) s)

/-- ADC (indirect,X), R110. -/
def execAdcIndx (z : Byte) (s : State) : Host.Outcome State Fault Refusal :=
  .next (adc (.mem (.indx z)) s)

/-- ADC (indirect),Y, R110. -/
def execAdcIndy (z : Byte) (s : State) : Host.Outcome State Fault Refusal :=
  .next (adc (.mem (.indy z)) s)

/-- SBC immediate, R111. -/
def execSbcImm (v : Byte) (s : State) : Host.Outcome State Fault Refusal :=
  .next (sbc (.imm v) s)

/-- SBC zeropage, R111. -/
def execSbcZp (z : Byte) (s : State) : Host.Outcome State Fault Refusal :=
  .next (sbc (.mem (.zp z)) s)

/-- SBC zeropage,X, R111. -/
def execSbcZpx (z : Byte) (s : State) : Host.Outcome State Fault Refusal :=
  .next (sbc (.mem (.zpx z)) s)

/-- SBC absolute, R111. -/
def execSbcAbs (w : Word) (s : State) : Host.Outcome State Fault Refusal :=
  .next (sbc (.mem (.abs w)) s)

/-- SBC absolute,X, R111. -/
def execSbcAbsx (w : Word) (s : State) : Host.Outcome State Fault Refusal :=
  .next (sbc (.mem (.absx w)) s)

/-- SBC absolute,Y, R111. -/
def execSbcAbsy (w : Word) (s : State) : Host.Outcome State Fault Refusal :=
  .next (sbc (.mem (.absy w)) s)

/-- SBC (indirect,X), R111. -/
def execSbcIndx (z : Byte) (s : State) : Host.Outcome State Fault Refusal :=
  .next (sbc (.mem (.indx z)) s)

/-- SBC (indirect),Y, R111. -/
def execSbcIndy (z : Byte) (s : State) : Host.Outcome State Fault Refusal :=
  .next (sbc (.mem (.indy z)) s)

/-- INC zeropage, R115. -/
def execIncZp (z : Byte) (s : State) : Host.Outcome State Fault Refusal :=
  .next (inc (.zp z) s)

/-- INC zeropage,X, R115. -/
def execIncZpx (z : Byte) (s : State) : Host.Outcome State Fault Refusal :=
  .next (inc (.zpx z) s)

/-- INC absolute, R115. -/
def execIncAbs (w : Word) (s : State) : Host.Outcome State Fault Refusal :=
  .next (inc (.abs w) s)

/-- INC absolute,X, R115. -/
def execIncAbsx (w : Word) (s : State) : Host.Outcome State Fault Refusal :=
  .next (inc (.absx w) s)

/-- DEC zeropage, R116. -/
def execDecZp (z : Byte) (s : State) : Host.Outcome State Fault Refusal :=
  .next (dec (.zp z) s)

/-- DEC zeropage,X, R116. -/
def execDecZpx (z : Byte) (s : State) : Host.Outcome State Fault Refusal :=
  .next (dec (.zpx z) s)

/-- DEC absolute, R116. -/
def execDecAbs (w : Word) (s : State) : Host.Outcome State Fault Refusal :=
  .next (dec (.abs w) s)

/-- DEC absolute,X, R116. -/
def execDecAbsx (w : Word) (s : State) : Host.Outcome State Fault Refusal :=
  .next (dec (.absx w) s)

/-- INX, R117. -/
def execInx (s : State) : Host.Outcome State Fault Refusal :=
  .next (s.takeX (s.x + 1))

/-- INY, R118. -/
def execIny (s : State) : Host.Outcome State Fault Refusal :=
  .next (s.takeY (s.y + 1))

/-- DEX, R119. -/
def execDex (s : State) : Host.Outcome State Fault Refusal :=
  .next (s.takeX (s.x - 1))

/-- DEY, R120. -/
def execDey (s : State) : Host.Outcome State Fault Refusal :=
  .next (s.takeY (s.y - 1))

end Sys2Proof.Machine
end

