-- ==== Sys2Proof/Machine/Control.lean ====
section
/-! DEFINITION. Control transfer (48_control R180–R194).
The operations the forms share come first, then one meaning per instruction. PC already holds the address of the next
instruction (00_scope R15). -/

namespace Sys2Proof.Machine

/-- `Branch(cond)` (48_control R180): no flag is written. -/
def branch (cond : Bool) (d : Byte) (s : State) : State := if cond then s.setPc (relativeTarget d s) else s

/-- JMP (R189, R190): `PC <- target`. -/
def jump (target : Word) (s : State) : State := s.setPc target

/-- JSR (R191): push the address of JSR's own last byte, `PC - 1`, high byte first, then go to the target. -/
def callSub (target : Word) (s : State) : State := (s.pushWord (s.pc - 1)).setPc target

/-- RTS (R192): pull the address, low byte first, and go to it plus 1. -/
def returnSub (s : State) : State := s.pulledWord.setPc (s.pullWord + 1)

/-- BCC relative, R181: taken when C = 0. -/
def execBcc (d : Byte) (s : State) : Host.Outcome State Fault Refusal :=
  .next (branch (!s.flags.c) d s)

/-- BCS relative, R182: taken when C = 1. -/
def execBcs (d : Byte) (s : State) : Host.Outcome State Fault Refusal :=
  .next (branch s.flags.c d s)

/-- BEQ relative, R183: taken when Z = 1. -/
def execBeq (d : Byte) (s : State) : Host.Outcome State Fault Refusal :=
  .next (branch s.flags.z d s)

/-- BMI relative, R184: taken when N = 1. -/
def execBmi (d : Byte) (s : State) : Host.Outcome State Fault Refusal :=
  .next (branch s.flags.n d s)

/-- BNE relative, R185: taken when Z = 0. -/
def execBne (d : Byte) (s : State) : Host.Outcome State Fault Refusal :=
  .next (branch (!s.flags.z) d s)

/-- BPL relative, R186: taken when N = 0. -/
def execBpl (d : Byte) (s : State) : Host.Outcome State Fault Refusal :=
  .next (branch (!s.flags.n) d s)

/-- BVC relative, R187: taken when V = 0. -/
def execBvc (d : Byte) (s : State) : Host.Outcome State Fault Refusal :=
  .next (branch (!s.flags.v) d s)

/-- BVS relative, R188: taken when V = 1. -/
def execBvs (d : Byte) (s : State) : Host.Outcome State Fault Refusal :=
  .next (branch s.flags.v d s)

/-- JMP absolute, R189. -/
def execJmpAbs (w : Word) (s : State) : Host.Outcome State Fault Refusal :=
  .next (jump w s)

/-- JMP indirect, R190. -/
def execJmpInd (w : Word) (s : State) : Host.Outcome State Fault Refusal :=
  .next (jump (indirectTarget w s) s)

/-- JSR absolute, R191. -/
def execJsr (w : Word) (s : State) : Host.Outcome State Fault Refusal :=
  .next (callSub w s)

/-- RTS, R192. -/
def execRts (s : State) : Host.Outcome State Fault Refusal :=
  .next (returnSub s)

/-- BRK, R193: the return address is PC + 1, past the padding byte (30_encoding R71). -/
def execBrk (s : State) : Host.Outcome State Fault Refusal :=
  .next (s.enterTrap (s.pc + 1))

/-- RTI, R194. -/
def execRti (s : State) : Host.Outcome State Fault Refusal :=
  .next s.returnFromTrap

end Sys2Proof.Machine
end

