-- ==== Sys2Proof/Machine/FlagOps.lean ====
section
/-! DEFINITION. Flag set and clear, NOP (46_flags_nop R160–R167).
The operations the forms share come first, then one meaning per instruction. PC already holds the address of the next
instruction (00_scope R15). -/

namespace Sys2Proof.Machine

/-- CLC, R160. -/
def execClc (s : State) : Host.Outcome State Fault Refusal :=
  .next (s.setFlag .c false)

/-- CLD, R161. -/
def execCld (s : State) : Host.Outcome State Fault Refusal :=
  .next (s.setFlag .d false)

/-- CLI, R162. -/
def execCli (s : State) : Host.Outcome State Fault Refusal :=
  .next (s.setFlag .i false)

/-- CLV, R163. -/
def execClv (s : State) : Host.Outcome State Fault Refusal :=
  .next (s.setFlag .v false)

/-- SEC, R164. -/
def execSec (s : State) : Host.Outcome State Fault Refusal :=
  .next (s.setFlag .c true)

/-- SED, R165. -/
def execSed (s : State) : Host.Outcome State Fault Refusal :=
  .next (s.setFlag .d true)

/-- SEI, R166. -/
def execSei (s : State) : Host.Outcome State Fault Refusal :=
  .next (s.setFlag .i true)

/-- NOP, R167: nothing; PC has already advanced. -/
def execNop (s : State) : Host.Outcome State Fault Refusal :=
  .next s

end Sys2Proof.Machine
end

