-- ==== Sys2Proof/Machine/Loads.lean ====
section
/-! DEFINITION. Loads and stores (41_load_store R100–R105).
The operations the forms share come first, then one meaning per instruction. PC already holds the address of the next
instruction (00_scope R15). -/

namespace Sys2Proof.Machine

/-- LDA (41_load_store R100): `A <- m; setNZ(A)`. -/
def lda (o : Operand) (s : State) : State :=
  let m := readOperand o s
  (s.setA m).setNZ m

/-- LDX (R101): `X <- m; setNZ(X)`. -/
def ldx (o : Operand) (s : State) : State :=
  let m := readOperand o s
  (s.setX m).setNZ m

/-- LDY (R102): `Y <- m; setNZ(Y)`. -/
def ldy (o : Operand) (s : State) : State :=
  let m := readOperand o s
  (s.setY m).setNZ m

/-- STA (R103): `MemWrite(EA(mode), 1, A)`; the cell is not read. -/
def sta (m : MemMode) (s : State) : State := s.write (ea m s) s.a

/-- STX (R104). -/
def stx (m : MemMode) (s : State) : State := s.write (ea m s) s.x

/-- STY (R105). -/
def sty (m : MemMode) (s : State) : State := s.write (ea m s) s.y

/-- LDA immediate, R100. -/
def execLdaImm (v : Byte) (s : State) : Host.Outcome State Fault Refusal :=
  .next (lda (.imm v) s)

/-- LDA zeropage, R100. -/
def execLdaZp (z : Byte) (s : State) : Host.Outcome State Fault Refusal :=
  .next (lda (.mem (.zp z)) s)

/-- LDA zeropage,X, R100. -/
def execLdaZpx (z : Byte) (s : State) : Host.Outcome State Fault Refusal :=
  .next (lda (.mem (.zpx z)) s)

/-- LDA absolute, R100. -/
def execLdaAbs (w : Word) (s : State) : Host.Outcome State Fault Refusal :=
  .next (lda (.mem (.abs w)) s)

/-- LDA absolute,X, R100. -/
def execLdaAbsx (w : Word) (s : State) : Host.Outcome State Fault Refusal :=
  .next (lda (.mem (.absx w)) s)

/-- LDA absolute,Y, R100. -/
def execLdaAbsy (w : Word) (s : State) : Host.Outcome State Fault Refusal :=
  .next (lda (.mem (.absy w)) s)

/-- LDA (indirect,X), R100. -/
def execLdaIndx (z : Byte) (s : State) : Host.Outcome State Fault Refusal :=
  .next (lda (.mem (.indx z)) s)

/-- LDA (indirect),Y, R100. -/
def execLdaIndy (z : Byte) (s : State) : Host.Outcome State Fault Refusal :=
  .next (lda (.mem (.indy z)) s)

/-- LDX immediate, R101. -/
def execLdxImm (v : Byte) (s : State) : Host.Outcome State Fault Refusal :=
  .next (ldx (.imm v) s)

/-- LDX zeropage, R101. -/
def execLdxZp (z : Byte) (s : State) : Host.Outcome State Fault Refusal :=
  .next (ldx (.mem (.zp z)) s)

/-- LDX zeropage,Y, R101. -/
def execLdxZpy (z : Byte) (s : State) : Host.Outcome State Fault Refusal :=
  .next (ldx (.mem (.zpy z)) s)

/-- LDX absolute, R101. -/
def execLdxAbs (w : Word) (s : State) : Host.Outcome State Fault Refusal :=
  .next (ldx (.mem (.abs w)) s)

/-- LDX absolute,Y, R101. -/
def execLdxAbsy (w : Word) (s : State) : Host.Outcome State Fault Refusal :=
  .next (ldx (.mem (.absy w)) s)

/-- LDY immediate, R102. -/
def execLdyImm (v : Byte) (s : State) : Host.Outcome State Fault Refusal :=
  .next (ldy (.imm v) s)

/-- LDY zeropage, R102. -/
def execLdyZp (z : Byte) (s : State) : Host.Outcome State Fault Refusal :=
  .next (ldy (.mem (.zp z)) s)

/-- LDY zeropage,X, R102. -/
def execLdyZpx (z : Byte) (s : State) : Host.Outcome State Fault Refusal :=
  .next (ldy (.mem (.zpx z)) s)

/-- LDY absolute, R102. -/
def execLdyAbs (w : Word) (s : State) : Host.Outcome State Fault Refusal :=
  .next (ldy (.mem (.abs w)) s)

/-- LDY absolute,X, R102. -/
def execLdyAbsx (w : Word) (s : State) : Host.Outcome State Fault Refusal :=
  .next (ldy (.mem (.absx w)) s)

/-- STA zeropage, R103. -/
def execStaZp (z : Byte) (s : State) : Host.Outcome State Fault Refusal :=
  .next (sta (.zp z) s)

/-- STA zeropage,X, R103. -/
def execStaZpx (z : Byte) (s : State) : Host.Outcome State Fault Refusal :=
  .next (sta (.zpx z) s)

/-- STA absolute, R103. -/
def execStaAbs (w : Word) (s : State) : Host.Outcome State Fault Refusal :=
  .next (sta (.abs w) s)

/-- STA absolute,X, R103. -/
def execStaAbsx (w : Word) (s : State) : Host.Outcome State Fault Refusal :=
  .next (sta (.absx w) s)

/-- STA absolute,Y, R103. -/
def execStaAbsy (w : Word) (s : State) : Host.Outcome State Fault Refusal :=
  .next (sta (.absy w) s)

/-- STA (indirect,X), R103. -/
def execStaIndx (z : Byte) (s : State) : Host.Outcome State Fault Refusal :=
  .next (sta (.indx z) s)

/-- STA (indirect),Y, R103. -/
def execStaIndy (z : Byte) (s : State) : Host.Outcome State Fault Refusal :=
  .next (sta (.indy z) s)

/-- STX zeropage, R104. -/
def execStxZp (z : Byte) (s : State) : Host.Outcome State Fault Refusal :=
  .next (stx (.zp z) s)

/-- STX zeropage,Y, R104. -/
def execStxZpy (z : Byte) (s : State) : Host.Outcome State Fault Refusal :=
  .next (stx (.zpy z) s)

/-- STX absolute, R104. -/
def execStxAbs (w : Word) (s : State) : Host.Outcome State Fault Refusal :=
  .next (stx (.abs w) s)

/-- STY zeropage, R105. -/
def execStyZp (z : Byte) (s : State) : Host.Outcome State Fault Refusal :=
  .next (sty (.zp z) s)

/-- STY zeropage,X, R105. -/
def execStyZpx (z : Byte) (s : State) : Host.Outcome State Fault Refusal :=
  .next (sty (.zpx z) s)

/-- STY absolute, R105. -/
def execStyAbs (w : Word) (s : State) : Host.Outcome State Fault Refusal :=
  .next (sty (.abs w) s)

end Sys2Proof.Machine
end

