-- ==== Sys2Proof/Machine/Logic.lean ====
section
/-! DEFINITION. Logical operations, compares and bit test (44_logic_compare R135–R142).
The operations the forms share come first, then one meaning per instruction. PC already holds the address of the next
instruction (00_scope R15). -/

namespace Sys2Proof.Machine

/-- AND, EOR, ORA (44_logic_compare R135–R137): `A <- r; setNZ(A)`. -/
def State.takeLogic (s : State) (r : Byte) : State := (s.setA r).setNZ r

/-- AND (R135). -/
def andA (o : Operand) (s : State) : State := s.takeLogic (s.a &&& readOperand o s)

/-- EOR (R136). -/
def eorA (o : Operand) (s : State) : State := s.takeLogic (s.a ^^^ readOperand o s)

/-- ORA (R137). -/
def oraA (o : Operand) (s : State) : State := s.takeLogic (s.a ||| readOperand o s)

/-- CMP (R139). -/
def cmp (o : Operand) (s : State) : State := s.compare s.a (readOperand o s)

/-- CPX (R140). -/
def cpx (o : Operand) (s : State) : State := s.compare s.x (readOperand o s)

/-- CPY (R141). -/
def cpy (o : Operand) (s : State) : State := s.compare s.y (readOperand o s)

/-- BIT (R142): A and memory are unchanged. -/
def bitA (m : MemMode) (s : State) : State := s.bitTest (readOperand (.mem m) s)

/-- AND immediate, R135. -/
def execAndImm (v : Byte) (s : State) : Host.Outcome State Fault Refusal :=
  .next (andA (.imm v) s)

/-- AND zeropage, R135. -/
def execAndZp (z : Byte) (s : State) : Host.Outcome State Fault Refusal :=
  .next (andA (.mem (.zp z)) s)

/-- AND zeropage,X, R135. -/
def execAndZpx (z : Byte) (s : State) : Host.Outcome State Fault Refusal :=
  .next (andA (.mem (.zpx z)) s)

/-- AND absolute, R135. -/
def execAndAbs (w : Word) (s : State) : Host.Outcome State Fault Refusal :=
  .next (andA (.mem (.abs w)) s)

/-- AND absolute,X, R135. -/
def execAndAbsx (w : Word) (s : State) : Host.Outcome State Fault Refusal :=
  .next (andA (.mem (.absx w)) s)

/-- AND absolute,Y, R135. -/
def execAndAbsy (w : Word) (s : State) : Host.Outcome State Fault Refusal :=
  .next (andA (.mem (.absy w)) s)

/-- AND (indirect,X), R135. -/
def execAndIndx (z : Byte) (s : State) : Host.Outcome State Fault Refusal :=
  .next (andA (.mem (.indx z)) s)

/-- AND (indirect),Y, R135. -/
def execAndIndy (z : Byte) (s : State) : Host.Outcome State Fault Refusal :=
  .next (andA (.mem (.indy z)) s)

/-- EOR immediate, R136. -/
def execEorImm (v : Byte) (s : State) : Host.Outcome State Fault Refusal :=
  .next (eorA (.imm v) s)

/-- EOR zeropage, R136. -/
def execEorZp (z : Byte) (s : State) : Host.Outcome State Fault Refusal :=
  .next (eorA (.mem (.zp z)) s)

/-- EOR zeropage,X, R136. -/
def execEorZpx (z : Byte) (s : State) : Host.Outcome State Fault Refusal :=
  .next (eorA (.mem (.zpx z)) s)

/-- EOR absolute, R136. -/
def execEorAbs (w : Word) (s : State) : Host.Outcome State Fault Refusal :=
  .next (eorA (.mem (.abs w)) s)

/-- EOR absolute,X, R136. -/
def execEorAbsx (w : Word) (s : State) : Host.Outcome State Fault Refusal :=
  .next (eorA (.mem (.absx w)) s)

/-- EOR absolute,Y, R136. -/
def execEorAbsy (w : Word) (s : State) : Host.Outcome State Fault Refusal :=
  .next (eorA (.mem (.absy w)) s)

/-- EOR (indirect,X), R136. -/
def execEorIndx (z : Byte) (s : State) : Host.Outcome State Fault Refusal :=
  .next (eorA (.mem (.indx z)) s)

/-- EOR (indirect),Y, R136. -/
def execEorIndy (z : Byte) (s : State) : Host.Outcome State Fault Refusal :=
  .next (eorA (.mem (.indy z)) s)

/-- ORA immediate, R137. -/
def execOraImm (v : Byte) (s : State) : Host.Outcome State Fault Refusal :=
  .next (oraA (.imm v) s)

/-- ORA zeropage, R137. -/
def execOraZp (z : Byte) (s : State) : Host.Outcome State Fault Refusal :=
  .next (oraA (.mem (.zp z)) s)

/-- ORA zeropage,X, R137. -/
def execOraZpx (z : Byte) (s : State) : Host.Outcome State Fault Refusal :=
  .next (oraA (.mem (.zpx z)) s)

/-- ORA absolute, R137. -/
def execOraAbs (w : Word) (s : State) : Host.Outcome State Fault Refusal :=
  .next (oraA (.mem (.abs w)) s)

/-- ORA absolute,X, R137. -/
def execOraAbsx (w : Word) (s : State) : Host.Outcome State Fault Refusal :=
  .next (oraA (.mem (.absx w)) s)

/-- ORA absolute,Y, R137. -/
def execOraAbsy (w : Word) (s : State) : Host.Outcome State Fault Refusal :=
  .next (oraA (.mem (.absy w)) s)

/-- ORA (indirect,X), R137. -/
def execOraIndx (z : Byte) (s : State) : Host.Outcome State Fault Refusal :=
  .next (oraA (.mem (.indx z)) s)

/-- ORA (indirect),Y, R137. -/
def execOraIndy (z : Byte) (s : State) : Host.Outcome State Fault Refusal :=
  .next (oraA (.mem (.indy z)) s)

/-- CMP immediate, R139. -/
def execCmpImm (v : Byte) (s : State) : Host.Outcome State Fault Refusal :=
  .next (cmp (.imm v) s)

/-- CMP zeropage, R139. -/
def execCmpZp (z : Byte) (s : State) : Host.Outcome State Fault Refusal :=
  .next (cmp (.mem (.zp z)) s)

/-- CMP zeropage,X, R139. -/
def execCmpZpx (z : Byte) (s : State) : Host.Outcome State Fault Refusal :=
  .next (cmp (.mem (.zpx z)) s)

/-- CMP absolute, R139. -/
def execCmpAbs (w : Word) (s : State) : Host.Outcome State Fault Refusal :=
  .next (cmp (.mem (.abs w)) s)

/-- CMP absolute,X, R139. -/
def execCmpAbsx (w : Word) (s : State) : Host.Outcome State Fault Refusal :=
  .next (cmp (.mem (.absx w)) s)

/-- CMP absolute,Y, R139. -/
def execCmpAbsy (w : Word) (s : State) : Host.Outcome State Fault Refusal :=
  .next (cmp (.mem (.absy w)) s)

/-- CMP (indirect,X), R139. -/
def execCmpIndx (z : Byte) (s : State) : Host.Outcome State Fault Refusal :=
  .next (cmp (.mem (.indx z)) s)

/-- CMP (indirect),Y, R139. -/
def execCmpIndy (z : Byte) (s : State) : Host.Outcome State Fault Refusal :=
  .next (cmp (.mem (.indy z)) s)

/-- CPX immediate, R140. -/
def execCpxImm (v : Byte) (s : State) : Host.Outcome State Fault Refusal :=
  .next (cpx (.imm v) s)

/-- CPX zeropage, R140. -/
def execCpxZp (z : Byte) (s : State) : Host.Outcome State Fault Refusal :=
  .next (cpx (.mem (.zp z)) s)

/-- CPX absolute, R140. -/
def execCpxAbs (w : Word) (s : State) : Host.Outcome State Fault Refusal :=
  .next (cpx (.mem (.abs w)) s)

/-- CPY immediate, R141. -/
def execCpyImm (v : Byte) (s : State) : Host.Outcome State Fault Refusal :=
  .next (cpy (.imm v) s)

/-- CPY zeropage, R141. -/
def execCpyZp (z : Byte) (s : State) : Host.Outcome State Fault Refusal :=
  .next (cpy (.mem (.zp z)) s)

/-- CPY absolute, R141. -/
def execCpyAbs (w : Word) (s : State) : Host.Outcome State Fault Refusal :=
  .next (cpy (.mem (.abs w)) s)

/-- BIT zeropage, R142. -/
def execBitZp (z : Byte) (s : State) : Host.Outcome State Fault Refusal :=
  .next (bitA (.zp z) s)

/-- BIT absolute, R142. -/
def execBitAbs (w : Word) (s : State) : Host.Outcome State Fault Refusal :=
  .next (bitA (.abs w) s)

end Sys2Proof.Machine
end

