-- ==== Sys2Proof/Machine/Shift.lean ====
section
/-! DEFINITION. Shifts and rotates (45_shift_rotate R150–R154).
The operations the forms share come first, then one meaning per instruction. PC already holds the address of the next
instruction (00_scope R15). -/

namespace Sys2Proof.Machine

/-- What the four shifts share (45_shift_rotate R150–R154): read the place, set C from the bit shifted out, write the result
back to the same place, set N and Z from it. -/
def shiftPlace (f : Byte → Bool → ShiftResult) (p : Place) (s : State) : State :=
  let r := f (readOperand p.operand s) s.flags.c
  (writeBack p r.value (s.setFlag .c r.carry)).setNZ r.value

/-- ASL (R150). -/
def asl (p : Place) (s : State) : State := shiftPlace aslResult p s

/-- LSR (R151). -/
def lsr (p : Place) (s : State) : State := shiftPlace lsrResult p s

/-- ROL (R152). -/
def rol (p : Place) (s : State) : State := shiftPlace rolResult p s

/-- ROR (R153). -/
def ror (p : Place) (s : State) : State := shiftPlace rorResult p s

/-- ASL accumulator, R150. -/
def execAslAcc (s : State) : Host.Outcome State Fault Refusal :=
  .next (asl .acc s)

/-- ASL zeropage, R150. -/
def execAslZp (z : Byte) (s : State) : Host.Outcome State Fault Refusal :=
  .next (asl (.mem (.zp z)) s)

/-- ASL zeropage,X, R150. -/
def execAslZpx (z : Byte) (s : State) : Host.Outcome State Fault Refusal :=
  .next (asl (.mem (.zpx z)) s)

/-- ASL absolute, R150. -/
def execAslAbs (w : Word) (s : State) : Host.Outcome State Fault Refusal :=
  .next (asl (.mem (.abs w)) s)

/-- ASL absolute,X, R150. -/
def execAslAbsx (w : Word) (s : State) : Host.Outcome State Fault Refusal :=
  .next (asl (.mem (.absx w)) s)

/-- LSR accumulator, R151. -/
def execLsrAcc (s : State) : Host.Outcome State Fault Refusal :=
  .next (lsr .acc s)

/-- LSR zeropage, R151. -/
def execLsrZp (z : Byte) (s : State) : Host.Outcome State Fault Refusal :=
  .next (lsr (.mem (.zp z)) s)

/-- LSR zeropage,X, R151. -/
def execLsrZpx (z : Byte) (s : State) : Host.Outcome State Fault Refusal :=
  .next (lsr (.mem (.zpx z)) s)

/-- LSR absolute, R151. -/
def execLsrAbs (w : Word) (s : State) : Host.Outcome State Fault Refusal :=
  .next (lsr (.mem (.abs w)) s)

/-- LSR absolute,X, R151. -/
def execLsrAbsx (w : Word) (s : State) : Host.Outcome State Fault Refusal :=
  .next (lsr (.mem (.absx w)) s)

/-- ROL accumulator, R152. -/
def execRolAcc (s : State) : Host.Outcome State Fault Refusal :=
  .next (rol .acc s)

/-- ROL zeropage, R152. -/
def execRolZp (z : Byte) (s : State) : Host.Outcome State Fault Refusal :=
  .next (rol (.mem (.zp z)) s)

/-- ROL zeropage,X, R152. -/
def execRolZpx (z : Byte) (s : State) : Host.Outcome State Fault Refusal :=
  .next (rol (.mem (.zpx z)) s)

/-- ROL absolute, R152. -/
def execRolAbs (w : Word) (s : State) : Host.Outcome State Fault Refusal :=
  .next (rol (.mem (.abs w)) s)

/-- ROL absolute,X, R152. -/
def execRolAbsx (w : Word) (s : State) : Host.Outcome State Fault Refusal :=
  .next (rol (.mem (.absx w)) s)

/-- ROR accumulator, R153. -/
def execRorAcc (s : State) : Host.Outcome State Fault Refusal :=
  .next (ror .acc s)

/-- ROR zeropage, R153. -/
def execRorZp (z : Byte) (s : State) : Host.Outcome State Fault Refusal :=
  .next (ror (.mem (.zp z)) s)

/-- ROR zeropage,X, R153. -/
def execRorZpx (z : Byte) (s : State) : Host.Outcome State Fault Refusal :=
  .next (ror (.mem (.zpx z)) s)

/-- ROR absolute, R153. -/
def execRorAbs (w : Word) (s : State) : Host.Outcome State Fault Refusal :=
  .next (ror (.mem (.abs w)) s)

/-- ROR absolute,X, R153. -/
def execRorAbsx (w : Word) (s : State) : Host.Outcome State Fault Refusal :=
  .next (ror (.mem (.absx w)) s)

end Sys2Proof.Machine
end

