-- ==== Sys2Proof/Machine/Stack.lean ====
section
/-! DEFINITION. Stack operations (47_stack R170–R174).
The operations the forms share come first, then one meaning per instruction. PC already holds the address of the next
instruction (00_scope R15). -/

namespace Sys2Proof.Machine

/-- PHA, R171: `Push(A)`. -/
def execPha (s : State) : Host.Outcome State Fault Refusal :=
  .next (s.push s.a)

/-- PHP, R172: `Push(P | 0x30)`. -/
def execPhp (s : State) : Host.Outcome State Fault Refusal :=
  .next (s.push s.flags.pushed)

/-- PLA, R173: `A <- Pull(); setNZ(A)`. -/
def execPla (s : State) : Host.Outcome State Fault Refusal :=
  .next ((s.pulled.setA s.pullByte).setNZ s.pullByte)

/-- PLP, R174: the six flags from the pulled byte. -/
def execPlp (s : State) : Host.Outcome State Fault Refusal :=
  .next (s.pulled.setFlags (Flags.ofByte s.pullByte))

end Sys2Proof.Machine
end

