-- ==== Sys2Proof/Machine/Transfer.lean ====
section
/-! DEFINITION. Register transfers (43_transfer R125–R130).
The operations the forms share come first, then one meaning per instruction. PC already holds the address of the next
instruction (00_scope R15). -/

namespace Sys2Proof.Machine

/-- TAX, R125: `X <- A; setNZ(X)`. -/
def execTax (s : State) : Host.Outcome State Fault Refusal :=
  .next ((s.setX s.a).setNZ s.a)

/-- TAY, R126: `Y <- A; setNZ(Y)`. -/
def execTay (s : State) : Host.Outcome State Fault Refusal :=
  .next ((s.setY s.a).setNZ s.a)

/-- TXA, R127: `A <- X; setNZ(A)`. -/
def execTxa (s : State) : Host.Outcome State Fault Refusal :=
  .next ((s.setA s.x).setNZ s.x)

/-- TYA, R128: `A <- Y; setNZ(A)`. -/
def execTya (s : State) : Host.Outcome State Fault Refusal :=
  .next ((s.setA s.y).setNZ s.y)

/-- TSX, R129: `X <- SP; setNZ(X)`. -/
def execTsx (s : State) : Host.Outcome State Fault Refusal :=
  .next ((s.setX s.sp).setNZ s.sp)

/-- TXS, R130: `SP <- X`, no flag. -/
def execTxs (s : State) : Host.Outcome State Fault Refusal :=
  .next (s.setSp s.x)

end Sys2Proof.Machine
end

