-- ==== Sys2Proof/Decode.lean ====
section
/-! DEFINITION. The metadata table (30_encoding R59–R64, R74), the decoder over bytes, the encoder, and the host's entry point
`decodeTableWord`. The opcode byte alone selects the entry (R56, R63). -/

namespace Sys2Proof

open Sys2Proof.Machine

/-- The extra cycles noted beside a base count (30_encoding R72; 70_reset R233, R234). -/
inductive ExtraCycles where
  | none
  | pageCrossed
  | branch
  deriving DecidableEq, Repr

/-- One defined row of the table of 30_encoding R74, with the instruction it selects, built from the operand bytes `b1`
and `b2` (R57). -/
structure OpcodeRow where
  opcode : Byte
  mnemonic : Mnemonic
  mode : Mode
  length : Nat
  cycles : Nat
  extra : ExtraCycles
  make : Byte → Byte → Instr

/-- 30_encoding R74, opcodes 0x00 to 0x0F. -/
def opcodeRows0 : List OpcodeRow := [
  ⟨0x00, .brk, .imp, 1, 7, .none, fun _ _ => .brk⟩,
  ⟨0x01, .ora, .indx, 2, 6, .none, fun b1 _ => .oraIndx b1⟩,
  ⟨0x05, .ora, .zp, 2, 3, .none, fun b1 _ => .oraZp b1⟩,
  ⟨0x06, .asl, .zp, 2, 5, .none, fun b1 _ => .aslZp b1⟩,
  ⟨0x08, .php, .imp, 1, 3, .none, fun _ _ => .php⟩,
  ⟨0x09, .ora, .imm, 2, 2, .none, fun b1 _ => .oraImm b1⟩,
  ⟨0x0A, .asl, .acc, 1, 2, .none, fun _ _ => .aslAcc⟩,
  ⟨0x0D, .ora, .abs, 3, 4, .none, fun b1 b2 => .oraAbs (word b1 b2)⟩,
  ⟨0x0E, .asl, .abs, 3, 6, .none, fun b1 b2 => .aslAbs (word b1 b2)⟩]

/-- 30_encoding R74, opcodes 0x10 to 0x1F. -/
def opcodeRows1 : List OpcodeRow := [
  ⟨0x10, .bpl, .rel, 2, 2, .branch, fun b1 _ => .bpl b1⟩,
  ⟨0x11, .ora, .indy, 2, 5, .pageCrossed, fun b1 _ => .oraIndy b1⟩,
  ⟨0x15, .ora, .zpx, 2, 4, .none, fun b1 _ => .oraZpx b1⟩,
  ⟨0x16, .asl, .zpx, 2, 6, .none, fun b1 _ => .aslZpx b1⟩,
  ⟨0x18, .clc, .imp, 1, 2, .none, fun _ _ => .clc⟩,
  ⟨0x19, .ora, .absy, 3, 4, .pageCrossed, fun b1 b2 => .oraAbsy (word b1 b2)⟩,
  ⟨0x1D, .ora, .absx, 3, 4, .pageCrossed, fun b1 b2 => .oraAbsx (word b1 b2)⟩,
  ⟨0x1E, .asl, .absx, 3, 7, .none, fun b1 b2 => .aslAbsx (word b1 b2)⟩]

/-- 30_encoding R74, opcodes 0x20 to 0x2F. -/
def opcodeRows2 : List OpcodeRow := [
  ⟨0x20, .jsr, .abs, 3, 6, .none, fun b1 b2 => .jsr (word b1 b2)⟩,
  ⟨0x21, .and, .indx, 2, 6, .none, fun b1 _ => .andIndx b1⟩,
  ⟨0x24, .bit, .zp, 2, 3, .none, fun b1 _ => .bitZp b1⟩,
  ⟨0x25, .and, .zp, 2, 3, .none, fun b1 _ => .andZp b1⟩,
  ⟨0x26, .rol, .zp, 2, 5, .none, fun b1 _ => .rolZp b1⟩,
  ⟨0x28, .plp, .imp, 1, 4, .none, fun _ _ => .plp⟩,
  ⟨0x29, .and, .imm, 2, 2, .none, fun b1 _ => .andImm b1⟩,
  ⟨0x2A, .rol, .acc, 1, 2, .none, fun _ _ => .rolAcc⟩,
  ⟨0x2C, .bit, .abs, 3, 4, .none, fun b1 b2 => .bitAbs (word b1 b2)⟩,
  ⟨0x2D, .and, .abs, 3, 4, .none, fun b1 b2 => .andAbs (word b1 b2)⟩,
  ⟨0x2E, .rol, .abs, 3, 6, .none, fun b1 b2 => .rolAbs (word b1 b2)⟩]

/-- 30_encoding R74, opcodes 0x30 to 0x3F. -/
def opcodeRows3 : List OpcodeRow := [
  ⟨0x30, .bmi, .rel, 2, 2, .branch, fun b1 _ => .bmi b1⟩,
  ⟨0x31, .and, .indy, 2, 5, .pageCrossed, fun b1 _ => .andIndy b1⟩,
  ⟨0x35, .and, .zpx, 2, 4, .none, fun b1 _ => .andZpx b1⟩,
  ⟨0x36, .rol, .zpx, 2, 6, .none, fun b1 _ => .rolZpx b1⟩,
  ⟨0x38, .sec, .imp, 1, 2, .none, fun _ _ => .sec⟩,
  ⟨0x39, .and, .absy, 3, 4, .pageCrossed, fun b1 b2 => .andAbsy (word b1 b2)⟩,
  ⟨0x3D, .and, .absx, 3, 4, .pageCrossed, fun b1 b2 => .andAbsx (word b1 b2)⟩,
  ⟨0x3E, .rol, .absx, 3, 7, .none, fun b1 b2 => .rolAbsx (word b1 b2)⟩]

/-- 30_encoding R74, opcodes 0x40 to 0x4F. -/
def opcodeRows4 : List OpcodeRow := [
  ⟨0x40, .rti, .imp, 1, 6, .none, fun _ _ => .rti⟩,
  ⟨0x41, .eor, .indx, 2, 6, .none, fun b1 _ => .eorIndx b1⟩,
  ⟨0x45, .eor, .zp, 2, 3, .none, fun b1 _ => .eorZp b1⟩,
  ⟨0x46, .lsr, .zp, 2, 5, .none, fun b1 _ => .lsrZp b1⟩,
  ⟨0x48, .pha, .imp, 1, 3, .none, fun _ _ => .pha⟩,
  ⟨0x49, .eor, .imm, 2, 2, .none, fun b1 _ => .eorImm b1⟩,
  ⟨0x4A, .lsr, .acc, 1, 2, .none, fun _ _ => .lsrAcc⟩,
  ⟨0x4C, .jmp, .abs, 3, 3, .none, fun b1 b2 => .jmpAbs (word b1 b2)⟩,
  ⟨0x4D, .eor, .abs, 3, 4, .none, fun b1 b2 => .eorAbs (word b1 b2)⟩,
  ⟨0x4E, .lsr, .abs, 3, 6, .none, fun b1 b2 => .lsrAbs (word b1 b2)⟩]

/-- 30_encoding R74, opcodes 0x50 to 0x5F. -/
def opcodeRows5 : List OpcodeRow := [
  ⟨0x50, .bvc, .rel, 2, 2, .branch, fun b1 _ => .bvc b1⟩,
  ⟨0x51, .eor, .indy, 2, 5, .pageCrossed, fun b1 _ => .eorIndy b1⟩,
  ⟨0x55, .eor, .zpx, 2, 4, .none, fun b1 _ => .eorZpx b1⟩,
  ⟨0x56, .lsr, .zpx, 2, 6, .none, fun b1 _ => .lsrZpx b1⟩,
  ⟨0x58, .cli, .imp, 1, 2, .none, fun _ _ => .cli⟩,
  ⟨0x59, .eor, .absy, 3, 4, .pageCrossed, fun b1 b2 => .eorAbsy (word b1 b2)⟩,
  ⟨0x5D, .eor, .absx, 3, 4, .pageCrossed, fun b1 b2 => .eorAbsx (word b1 b2)⟩,
  ⟨0x5E, .lsr, .absx, 3, 7, .none, fun b1 b2 => .lsrAbsx (word b1 b2)⟩]

/-- 30_encoding R74, opcodes 0x60 to 0x6F. -/
def opcodeRows6 : List OpcodeRow := [
  ⟨0x60, .rts, .imp, 1, 6, .none, fun _ _ => .rts⟩,
  ⟨0x61, .adc, .indx, 2, 6, .none, fun b1 _ => .adcIndx b1⟩,
  ⟨0x65, .adc, .zp, 2, 3, .none, fun b1 _ => .adcZp b1⟩,
  ⟨0x66, .ror, .zp, 2, 5, .none, fun b1 _ => .rorZp b1⟩,
  ⟨0x68, .pla, .imp, 1, 4, .none, fun _ _ => .pla⟩,
  ⟨0x69, .adc, .imm, 2, 2, .none, fun b1 _ => .adcImm b1⟩,
  ⟨0x6A, .ror, .acc, 1, 2, .none, fun _ _ => .rorAcc⟩,
  ⟨0x6C, .jmp, .ind, 3, 5, .none, fun b1 b2 => .jmpInd (word b1 b2)⟩,
  ⟨0x6D, .adc, .abs, 3, 4, .none, fun b1 b2 => .adcAbs (word b1 b2)⟩,
  ⟨0x6E, .ror, .abs, 3, 6, .none, fun b1 b2 => .rorAbs (word b1 b2)⟩]

/-- 30_encoding R74, opcodes 0x70 to 0x7F. -/
def opcodeRows7 : List OpcodeRow := [
  ⟨0x70, .bvs, .rel, 2, 2, .branch, fun b1 _ => .bvs b1⟩,
  ⟨0x71, .adc, .indy, 2, 5, .pageCrossed, fun b1 _ => .adcIndy b1⟩,
  ⟨0x75, .adc, .zpx, 2, 4, .none, fun b1 _ => .adcZpx b1⟩,
  ⟨0x76, .ror, .zpx, 2, 6, .none, fun b1 _ => .rorZpx b1⟩,
  ⟨0x78, .sei, .imp, 1, 2, .none, fun _ _ => .sei⟩,
  ⟨0x79, .adc, .absy, 3, 4, .pageCrossed, fun b1 b2 => .adcAbsy (word b1 b2)⟩,
  ⟨0x7D, .adc, .absx, 3, 4, .pageCrossed, fun b1 b2 => .adcAbsx (word b1 b2)⟩,
  ⟨0x7E, .ror, .absx, 3, 7, .none, fun b1 b2 => .rorAbsx (word b1 b2)⟩]

/-- 30_encoding R74, opcodes 0x80 to 0x8F. -/
def opcodeRows8 : List OpcodeRow := [
  ⟨0x81, .sta, .indx, 2, 6, .none, fun b1 _ => .staIndx b1⟩,
  ⟨0x84, .sty, .zp, 2, 3, .none, fun b1 _ => .styZp b1⟩,
  ⟨0x85, .sta, .zp, 2, 3, .none, fun b1 _ => .staZp b1⟩,
  ⟨0x86, .stx, .zp, 2, 3, .none, fun b1 _ => .stxZp b1⟩,
  ⟨0x88, .dey, .imp, 1, 2, .none, fun _ _ => .dey⟩,
  ⟨0x8A, .txa, .imp, 1, 2, .none, fun _ _ => .txa⟩,
  ⟨0x8C, .sty, .abs, 3, 4, .none, fun b1 b2 => .styAbs (word b1 b2)⟩,
  ⟨0x8D, .sta, .abs, 3, 4, .none, fun b1 b2 => .staAbs (word b1 b2)⟩,
  ⟨0x8E, .stx, .abs, 3, 4, .none, fun b1 b2 => .stxAbs (word b1 b2)⟩]

/-- 30_encoding R74, opcodes 0x90 to 0x9F. -/
def opcodeRows9 : List OpcodeRow := [
  ⟨0x90, .bcc, .rel, 2, 2, .branch, fun b1 _ => .bcc b1⟩,
  ⟨0x91, .sta, .indy, 2, 6, .none, fun b1 _ => .staIndy b1⟩,
  ⟨0x94, .sty, .zpx, 2, 4, .none, fun b1 _ => .styZpx b1⟩,
  ⟨0x95, .sta, .zpx, 2, 4, .none, fun b1 _ => .staZpx b1⟩,
  ⟨0x96, .stx, .zpy, 2, 4, .none, fun b1 _ => .stxZpy b1⟩,
  ⟨0x98, .tya, .imp, 1, 2, .none, fun _ _ => .tya⟩,
  ⟨0x99, .sta, .absy, 3, 5, .none, fun b1 b2 => .staAbsy (word b1 b2)⟩,
  ⟨0x9A, .txs, .imp, 1, 2, .none, fun _ _ => .txs⟩,
  ⟨0x9D, .sta, .absx, 3, 5, .none, fun b1 b2 => .staAbsx (word b1 b2)⟩]

/-- 30_encoding R74, opcodes 0xA0 to 0xAF. -/
def opcodeRowsA : List OpcodeRow := [
  ⟨0xA0, .ldy, .imm, 2, 2, .none, fun b1 _ => .ldyImm b1⟩,
  ⟨0xA1, .lda, .indx, 2, 6, .none, fun b1 _ => .ldaIndx b1⟩,
  ⟨0xA2, .ldx, .imm, 2, 2, .none, fun b1 _ => .ldxImm b1⟩,
  ⟨0xA4, .ldy, .zp, 2, 3, .none, fun b1 _ => .ldyZp b1⟩,
  ⟨0xA5, .lda, .zp, 2, 3, .none, fun b1 _ => .ldaZp b1⟩,
  ⟨0xA6, .ldx, .zp, 2, 3, .none, fun b1 _ => .ldxZp b1⟩,
  ⟨0xA8, .tay, .imp, 1, 2, .none, fun _ _ => .tay⟩,
  ⟨0xA9, .lda, .imm, 2, 2, .none, fun b1 _ => .ldaImm b1⟩,
  ⟨0xAA, .tax, .imp, 1, 2, .none, fun _ _ => .tax⟩,
  ⟨0xAC, .ldy, .abs, 3, 4, .none, fun b1 b2 => .ldyAbs (word b1 b2)⟩,
  ⟨0xAD, .lda, .abs, 3, 4, .none, fun b1 b2 => .ldaAbs (word b1 b2)⟩,
  ⟨0xAE, .ldx, .abs, 3, 4, .none, fun b1 b2 => .ldxAbs (word b1 b2)⟩]

/-- 30_encoding R74, opcodes 0xB0 to 0xBF. -/
def opcodeRowsB : List OpcodeRow := [
  ⟨0xB0, .bcs, .rel, 2, 2, .branch, fun b1 _ => .bcs b1⟩,
  ⟨0xB1, .lda, .indy, 2, 5, .pageCrossed, fun b1 _ => .ldaIndy b1⟩,
  ⟨0xB4, .ldy, .zpx, 2, 4, .none, fun b1 _ => .ldyZpx b1⟩,
  ⟨0xB5, .lda, .zpx, 2, 4, .none, fun b1 _ => .ldaZpx b1⟩,
  ⟨0xB6, .ldx, .zpy, 2, 4, .none, fun b1 _ => .ldxZpy b1⟩,
  ⟨0xB8, .clv, .imp, 1, 2, .none, fun _ _ => .clv⟩,
  ⟨0xB9, .lda, .absy, 3, 4, .pageCrossed, fun b1 b2 => .ldaAbsy (word b1 b2)⟩,
  ⟨0xBA, .tsx, .imp, 1, 2, .none, fun _ _ => .tsx⟩,
  ⟨0xBC, .ldy, .absx, 3, 4, .pageCrossed, fun b1 b2 => .ldyAbsx (word b1 b2)⟩,
  ⟨0xBD, .lda, .absx, 3, 4, .pageCrossed, fun b1 b2 => .ldaAbsx (word b1 b2)⟩,
  ⟨0xBE, .ldx, .absy, 3, 4, .pageCrossed, fun b1 b2 => .ldxAbsy (word b1 b2)⟩]

/-- 30_encoding R74, opcodes 0xC0 to 0xCF. -/
def opcodeRowsC : List OpcodeRow := [
  ⟨0xC0, .cpy, .imm, 2, 2, .none, fun b1 _ => .cpyImm b1⟩,
  ⟨0xC1, .cmp, .indx, 2, 6, .none, fun b1 _ => .cmpIndx b1⟩,
  ⟨0xC4, .cpy, .zp, 2, 3, .none, fun b1 _ => .cpyZp b1⟩,
  ⟨0xC5, .cmp, .zp, 2, 3, .none, fun b1 _ => .cmpZp b1⟩,
  ⟨0xC6, .dec, .zp, 2, 5, .none, fun b1 _ => .decZp b1⟩,
  ⟨0xC8, .iny, .imp, 1, 2, .none, fun _ _ => .iny⟩,
  ⟨0xC9, .cmp, .imm, 2, 2, .none, fun b1 _ => .cmpImm b1⟩,
  ⟨0xCA, .dex, .imp, 1, 2, .none, fun _ _ => .dex⟩,
  ⟨0xCC, .cpy, .abs, 3, 4, .none, fun b1 b2 => .cpyAbs (word b1 b2)⟩,
  ⟨0xCD, .cmp, .abs, 3, 4, .none, fun b1 b2 => .cmpAbs (word b1 b2)⟩,
  ⟨0xCE, .dec, .abs, 3, 6, .none, fun b1 b2 => .decAbs (word b1 b2)⟩]

/-- 30_encoding R74, opcodes 0xD0 to 0xDF. -/
def opcodeRowsD : List OpcodeRow := [
  ⟨0xD0, .bne, .rel, 2, 2, .branch, fun b1 _ => .bne b1⟩,
  ⟨0xD1, .cmp, .indy, 2, 5, .pageCrossed, fun b1 _ => .cmpIndy b1⟩,
  ⟨0xD5, .cmp, .zpx, 2, 4, .none, fun b1 _ => .cmpZpx b1⟩,
  ⟨0xD6, .dec, .zpx, 2, 6, .none, fun b1 _ => .decZpx b1⟩,
  ⟨0xD8, .cld, .imp, 1, 2, .none, fun _ _ => .cld⟩,
  ⟨0xD9, .cmp, .absy, 3, 4, .pageCrossed, fun b1 b2 => .cmpAbsy (word b1 b2)⟩,
  ⟨0xDD, .cmp, .absx, 3, 4, .pageCrossed, fun b1 b2 => .cmpAbsx (word b1 b2)⟩,
  ⟨0xDE, .dec, .absx, 3, 7, .none, fun b1 b2 => .decAbsx (word b1 b2)⟩]

/-- 30_encoding R74, opcodes 0xE0 to 0xEF. -/
def opcodeRowsE : List OpcodeRow := [
  ⟨0xE0, .cpx, .imm, 2, 2, .none, fun b1 _ => .cpxImm b1⟩,
  ⟨0xE1, .sbc, .indx, 2, 6, .none, fun b1 _ => .sbcIndx b1⟩,
  ⟨0xE4, .cpx, .zp, 2, 3, .none, fun b1 _ => .cpxZp b1⟩,
  ⟨0xE5, .sbc, .zp, 2, 3, .none, fun b1 _ => .sbcZp b1⟩,
  ⟨0xE6, .inc, .zp, 2, 5, .none, fun b1 _ => .incZp b1⟩,
  ⟨0xE8, .inx, .imp, 1, 2, .none, fun _ _ => .inx⟩,
  ⟨0xE9, .sbc, .imm, 2, 2, .none, fun b1 _ => .sbcImm b1⟩,
  ⟨0xEA, .nop, .imp, 1, 2, .none, fun _ _ => .nop⟩,
  ⟨0xEC, .cpx, .abs, 3, 4, .none, fun b1 b2 => .cpxAbs (word b1 b2)⟩,
  ⟨0xED, .sbc, .abs, 3, 4, .none, fun b1 b2 => .sbcAbs (word b1 b2)⟩,
  ⟨0xEE, .inc, .abs, 3, 6, .none, fun b1 b2 => .incAbs (word b1 b2)⟩]

/-- 30_encoding R74, opcodes 0xF0 to 0xFF. -/
def opcodeRowsF : List OpcodeRow := [
  ⟨0xF0, .beq, .rel, 2, 2, .branch, fun b1 _ => .beq b1⟩,
  ⟨0xF1, .sbc, .indy, 2, 5, .pageCrossed, fun b1 _ => .sbcIndy b1⟩,
  ⟨0xF5, .sbc, .zpx, 2, 4, .none, fun b1 _ => .sbcZpx b1⟩,
  ⟨0xF6, .inc, .zpx, 2, 6, .none, fun b1 _ => .incZpx b1⟩,
  ⟨0xF8, .sed, .imp, 1, 2, .none, fun _ _ => .sed⟩,
  ⟨0xF9, .sbc, .absy, 3, 4, .pageCrossed, fun b1 b2 => .sbcAbsy (word b1 b2)⟩,
  ⟨0xFD, .sbc, .absx, 3, 4, .pageCrossed, fun b1 b2 => .sbcAbsx (word b1 b2)⟩,
  ⟨0xFE, .inc, .absx, 3, 7, .none, fun b1 b2 => .incAbsx (word b1 b2)⟩]

/-- The 151 defined rows (30_encoding R60). -/
def opcodeTable : List OpcodeRow :=
  opcodeRows0 ++ opcodeRows1 ++ opcodeRows2 ++ opcodeRows3 ++ opcodeRows4 ++ opcodeRows5 ++ opcodeRows6 ++ opcodeRows7
    ++ opcodeRows8 ++ opcodeRows9 ++ opcodeRowsA ++ opcodeRowsB ++ opcodeRowsC ++ opcodeRowsD ++ opcodeRowsE ++ opcodeRowsF

/-- The row of an opcode byte; none for the 105 illegal bytes (30_encoding R61, R62). -/
def rowOf (op : Byte) : Option OpcodeRow := opcodeTable.find? (fun r => r.opcode == op)

/-- A metadata entry: (mnemonic text, length, base cycles, label) (30_encoding R59). -/
structure MetaEntry where
  mnemonic : String
  length : Nat
  cycles : Nat
  label : String
  deriving DecidableEq, Repr

/-- `META[op]`: the zero value for an undefined opcode (30_encoding R59, R61). -/
def metaOf (op : Byte) : MetaEntry :=
  match rowOf op with
  | some r => { mnemonic := r.mnemonic.text, length := r.length, cycles := r.cycles, label := r.mode.label }
  | none => { mnemonic := "", length := 0, cycles := 0, label := "" }

/-- Why bytes decode to no instruction. -/
inductive DecodeError where
  /-- there is no byte -/
  | noBytes
  /-- the opcode byte has length 0 in the table (30_encoding R61, R62, R66) -/
  | illegalOpcode (op : Byte)
  /-- fewer bytes than the table's length -/
  | truncated (op : Byte)
  deriving DecidableEq, Repr

/-- What bytes decode to: an instruction and the bytes after it, or a rejection by name. -/
inductive Decoded where
  | ok (i : Instr) (rest : List Byte)
  | error (why : DecodeError)
  deriving DecidableEq, Repr

/-- Read one instruction from the front of a list of bytes; the rest of the list is returned (30_encoding R55, R63). -/
def decode : List Byte → Decoded
  | [] => .error .noBytes
  | op :: rest =>
    match rowOf op with
    | none => .error (.illegalOpcode op)
    | some r =>
      if rest.length + 1 < r.length then .error (.truncated op)
      else .ok (r.make (rest.getD 0 0x00) (rest.getD 1 0x00)) (rest.drop (r.length - 1))

/-- The opcode byte of an instruction (the Encodings line of its rule, files 41 to 48). -/
def Instr.opcode : Instr → Byte
  | .ldaImm _ => 0xA9
  | .ldaZp _ => 0xA5
  | .ldaZpx _ => 0xB5
  | .ldaAbs _ => 0xAD
  | .ldaAbsx _ => 0xBD
  | .ldaAbsy _ => 0xB9
  | .ldaIndx _ => 0xA1
  | .ldaIndy _ => 0xB1
  | .ldxImm _ => 0xA2
  | .ldxZp _ => 0xA6
  | .ldxZpy _ => 0xB6
  | .ldxAbs _ => 0xAE
  | .ldxAbsy _ => 0xBE
  | .ldyImm _ => 0xA0
  | .ldyZp _ => 0xA4
  | .ldyZpx _ => 0xB4
  | .ldyAbs _ => 0xAC
  | .ldyAbsx _ => 0xBC
  | .staZp _ => 0x85
  | .staZpx _ => 0x95
  | .staAbs _ => 0x8D
  | .staAbsx _ => 0x9D
  | .staAbsy _ => 0x99
  | .staIndx _ => 0x81
  | .staIndy _ => 0x91
  | .stxZp _ => 0x86
  | .stxZpy _ => 0x96
  | .stxAbs _ => 0x8E
  | .styZp _ => 0x84
  | .styZpx _ => 0x94
  | .styAbs _ => 0x8C
  | .adcImm _ => 0x69
  | .adcZp _ => 0x65
  | .adcZpx _ => 0x75
  | .adcAbs _ => 0x6D
  | .adcAbsx _ => 0x7D
  | .adcAbsy _ => 0x79
  | .adcIndx _ => 0x61
  | .adcIndy _ => 0x71
  | .sbcImm _ => 0xE9
  | .sbcZp _ => 0xE5
  | .sbcZpx _ => 0xF5
  | .sbcAbs _ => 0xED
  | .sbcAbsx _ => 0xFD
  | .sbcAbsy _ => 0xF9
  | .sbcIndx _ => 0xE1
  | .sbcIndy _ => 0xF1
  | .incZp _ => 0xE6
  | .incZpx _ => 0xF6
  | .incAbs _ => 0xEE
  | .incAbsx _ => 0xFE
  | .decZp _ => 0xC6
  | .decZpx _ => 0xD6
  | .decAbs _ => 0xCE
  | .decAbsx _ => 0xDE
  | .inx => 0xE8
  | .iny => 0xC8
  | .dex => 0xCA
  | .dey => 0x88
  | .tax => 0xAA
  | .tay => 0xA8
  | .txa => 0x8A
  | .tya => 0x98
  | .tsx => 0xBA
  | .txs => 0x9A
  | .andImm _ => 0x29
  | .andZp _ => 0x25
  | .andZpx _ => 0x35
  | .andAbs _ => 0x2D
  | .andAbsx _ => 0x3D
  | .andAbsy _ => 0x39
  | .andIndx _ => 0x21
  | .andIndy _ => 0x31
  | .eorImm _ => 0x49
  | .eorZp _ => 0x45
  | .eorZpx _ => 0x55
  | .eorAbs _ => 0x4D
  | .eorAbsx _ => 0x5D
  | .eorAbsy _ => 0x59
  | .eorIndx _ => 0x41
  | .eorIndy _ => 0x51
  | .oraImm _ => 0x09
  | .oraZp _ => 0x05
  | .oraZpx _ => 0x15
  | .oraAbs _ => 0x0D
  | .oraAbsx _ => 0x1D
  | .oraAbsy _ => 0x19
  | .oraIndx _ => 0x01
  | .oraIndy _ => 0x11
  | .cmpImm _ => 0xC9
  | .cmpZp _ => 0xC5
  | .cmpZpx _ => 0xD5
  | .cmpAbs _ => 0xCD
  | .cmpAbsx _ => 0xDD
  | .cmpAbsy _ => 0xD9
  | .cmpIndx _ => 0xC1
  | .cmpIndy _ => 0xD1
  | .cpxImm _ => 0xE0
  | .cpxZp _ => 0xE4
  | .cpxAbs _ => 0xEC
  | .cpyImm _ => 0xC0
  | .cpyZp _ => 0xC4
  | .cpyAbs _ => 0xCC
  | .bitZp _ => 0x24
  | .bitAbs _ => 0x2C
  | .aslAcc => 0x0A
  | .aslZp _ => 0x06
  | .aslZpx _ => 0x16
  | .aslAbs _ => 0x0E
  | .aslAbsx _ => 0x1E
  | .lsrAcc => 0x4A
  | .lsrZp _ => 0x46
  | .lsrZpx _ => 0x56
  | .lsrAbs _ => 0x4E
  | .lsrAbsx _ => 0x5E
  | .rolAcc => 0x2A
  | .rolZp _ => 0x26
  | .rolZpx _ => 0x36
  | .rolAbs _ => 0x2E
  | .rolAbsx _ => 0x3E
  | .rorAcc => 0x6A
  | .rorZp _ => 0x66
  | .rorZpx _ => 0x76
  | .rorAbs _ => 0x6E
  | .rorAbsx _ => 0x7E
  | .clc => 0x18
  | .cld => 0xD8
  | .cli => 0x58
  | .clv => 0xB8
  | .sec => 0x38
  | .sed => 0xF8
  | .sei => 0x78
  | .nop => 0xEA
  | .pha => 0x48
  | .php => 0x08
  | .pla => 0x68
  | .plp => 0x28
  | .bcc _ => 0x90
  | .bcs _ => 0xB0
  | .beq _ => 0xF0
  | .bmi _ => 0x30
  | .bne _ => 0xD0
  | .bpl _ => 0x10
  | .bvc _ => 0x50
  | .bvs _ => 0x70
  | .jmpAbs _ => 0x4C
  | .jmpInd _ => 0x6C
  | .jsr _ => 0x20
  | .rts => 0x60
  | .brk => 0x00
  | .rti => 0x40

/-- The operand bytes of a form, the low byte of a word first (30_encoding R55, R57). -/
def Form.bytes : Form → List Byte
  | .imp => []
  | .data .acc => []
  | .data (.imm v) => [v]
  | .data (.mem (.zp z)) => [z]
  | .data (.mem (.zpx z)) => [z]
  | .data (.mem (.zpy z)) => [z]
  | .data (.mem (.abs w)) => [lowByte w, highByte w]
  | .data (.mem (.absx w)) => [lowByte w, highByte w]
  | .data (.mem (.absy w)) => [lowByte w, highByte w]
  | .data (.mem (.indx z)) => [z]
  | .data (.mem (.indy z)) => [z]
  | .ind w => [lowByte w, highByte w]
  | .rel d => [d]

/-- The bytes of an instruction, byte 0 the opcode (30_encoding R55). -/
def encode (i : Instr) : List Byte := i.opcode :: i.form.bytes

/-- The instruction the decoder reads from an instruction whose bits are `w`, numbered with bit 0 the least significant bit
of the first byte; `nbits` bits are given, the bits above them are 0. -/
def decodeTableWord (nbits w : Nat) : Option Instr :=
  let bits := w % 2 ^ nbits
  match decode [byteAt bits 0, byteAt bits 1, byteAt bits 2] with
  | .ok i _ => some i
  | .error _ => none

end Sys2Proof
end

