-- ==== Sys2Proof/Machine/Fetch.lean ====
section
/-! DEFINITION. The fetch half of the instruction step (40_dispatch R77, R80, R81). -/

namespace Sys2Proof.Machine

/-- Operand byte `k` (1 or 2), read from `(pc0 + k) mod 65536` when the table's length says the instruction has it, else 0
(40_dispatch R77, R80). -/
def operandByte (s : State) (length k : Nat) : Byte :=
  if k < length then s.read (s.pc + BitVec.ofNat 16 k) else 0x00

/-- Fetch one instruction at PC and the address after it, `(pc0 + length) mod 65536`; none when the table gives the opcode
byte length 0 (40_dispatch R77, R79–R81). -/
def fetch (s : State) : Option (Instr × Word) :=
  match rowOf (s.read s.pc) with
  | none => none
  | some r =>
    some (r.make (operandByte s r.length 1) (operandByte s r.length 2), s.pc + BitVec.ofNat 16 r.length)

/-- The fault of an illegal opcode, with the faulted state (40_dispatch R79): only the `fault` field changes. -/
def illegalOpcodeFault (s : State) : Fault :=
  let op := s.read s.pc
  .illegalOpcode op s.pc (s.setFault (.illegalOpcode op s.pc))

/-- Store the three bytes of a table word at PC, and clear what would keep the next step from fetching there: a fault, and
PC in HALT_PC (log 4). -/
def State.placeWord (s : State) (bits : Nat) : State :=
  let placed := ((s.write s.pc (byteAt bits 0)).write (s.pc + 1) (byteAt bits 1)).write (s.pc + 2) (byteAt bits 2)
  { placed with fault := none, haltPc := s.haltPc.filter (fun a => a != s.pc) }

end Sys2Proof.Machine
end

