-- ==== Sys2Proof/Machine/Step.lean ====
section
/-! DEFINITION. One instruction step (40_dispatch R75, R77): fetch, look up, advance PC, execute. -/

namespace Sys2Proof.Machine

/-- The step of 40_dispatch R77. No step from a faulted or a final state (R75, R78; log 5); an illegal opcode faults (R79). -/
def step (s : State) : Host.Outcome State Fault Refusal :=
  match s.fault with
  | some cause => .fault (.noStepFaulted cause)
  | none =>
    if s.isFinal then .fault (.noStepFinal s.pc)
    else
      match fetch s with
      | none => .fault (illegalOpcodeFault s)
      | some (i, next) => exec i (s.setPc next)

/-- The state with the instruction whose bits are `w` placed where `step` fetches next: at PC, `nbits` bits of it, the bits
above them 0. It stands for the loader of 70_reset R222 (log 4). -/
def State.withFetchWord (s : State) (nbits w : Nat) : State := s.placeWord (w % 2 ^ nbits)

end Sys2Proof.Machine
end

