-- ==== Sys2Proof/Machine/AddressMap.lean ====
section
/-! DEFINITION. The address map of 20_memory R48, a convention of the platform: "not enforced by the core". No step reads it. -/

namespace Sys2Proof.Machine

/-- The conventional uses of 20_memory R48. -/
inductive RegionUse where
  | internalRam | ramMirror | ppuRegisters | ppuMirror | apuIoRegisters | testMode | cartridge
  deriving DecidableEq, Repr

/-- A range of addresses, both ends included, and its conventional use. -/
structure Region where
  first : Nat
  last : Nat
  use : RegionUse
  deriving DecidableEq, Repr

/-- The rows of 20_memory R48; the boundaries are the source's unaudited literals (93 I5). -/
def addressMap : List Region := [
  ⟨0x0000, 0x07FF, .internalRam⟩,
  ⟨0x0800, 0x1FFF, .ramMirror⟩,
  ⟨0x2000, 0x2007, .ppuRegisters⟩,
  ⟨0x2008, 0x3FFF, .ppuMirror⟩,
  ⟨0x4000, 0x4017, .apuIoRegisters⟩,
  ⟨0x4018, 0x401F, .testMode⟩,
  ⟨0x4020, 0xFFFF, .cartridge⟩]

/-- The conventional use of an address. -/
def regionUse (a : Word) : Option RegionUse :=
  (addressMap.find? (fun r => decide (r.first ≤ a.toNat) && decide (a.toNat ≤ r.last))).map Region.use

end Sys2Proof.Machine
end

