-- ==== Sys2Proof/Machine/Timing.lean ====
section
/-! DEFINITION. Cycle counts: metadata that no step reads (30_encoding R72; 70_reset R232–R234). -/

namespace Sys2Proof.Machine

/-- The address before its index is added, for the three modes whose page crossing costs a cycle (70_reset R233). -/
def unindexed (m : MemMode) (s : State) : Word :=
  match m with
  | .indy z => s.zpRead16 z
  | .absx w => w
  | .absy w => w
  | .zp _ => ea m s
  | .zpx _ => ea m s
  | .zpy _ => ea m s
  | .abs _ => ea m s
  | .indx _ => ea m s

/-- The indexed address lies in another page than the unindexed one (70_reset R233). -/
def pageCrossed (f : Form) (s : State) : Bool :=
  match f with
  | .data (.mem m) => highByte (ea m s) != highByte (unindexed m s)
  | .data (.imm _) => false
  | .data .acc => false
  | .imp => false
  | .ind _ => false
  | .rel _ => false

/-- The condition of a branch (48_control R181–R188); false for every other mnemonic. -/
def branchTaken (m : Mnemonic) (p : Flags) : Bool :=
  match m with
  | .bcc => !p.c
  | .bcs => p.c
  | .beq => p.z
  | .bmi => p.n
  | .bne => !p.z
  | .bpl => !p.n
  | .bvc => !p.v
  | .bvs => p.v
  | _ => false

/-- The extra cycles of a branch: 1 when taken, 1 more when its target lies in another page than the next instruction
(70_reset R234). -/
def branchExtra (i : Instr) (s : State) : Nat :=
  match i.form with
  | .rel d =>
    if branchTaken i.mnemonic s.flags then
      if highByte (relativeTarget d s) = highByte s.pc then 1 else 2
    else 0
  | .imp => 0
  | .data _ => 0
  | .ind _ => 0

/-- The extra cycles of an instruction, as its row notes them. -/
def extraCycles (e : ExtraCycles) (i : Instr) (s : State) : Nat :=
  match e with
  | .none => 0
  | .pageCrossed => if pageCrossed i.form s then 1 else 0
  | .branch => branchExtra i s

/-- The clock cycles of an instruction, in the state after its fetch: the base count of its row and the extras. -/
def cycles (i : Instr) (s : State) : Nat :=
  match rowOf i.opcode with
  | some r => r.cycles + extraCycles r.extra i s
  | none => 0

end Sys2Proof.Machine
end

