-- ==== Sys2Proof/Safety.lean ====
section
/-! DEFINITION. Runs (40_dispatch R76, R78) and what counts as a safe one: no illegal opcode is met. -/

namespace Sys2Proof

open Sys2Proof.Machine

/-- The invariant of every state a run reaches: memory is canonical, and no fault is recorded (a fault ends the run,
60_exceptions R200). -/
def Machine.State.Inv (s : State) : Prop := s.mem.wf = true ∧ s.fault = none

/-- `n` steps from `s` answer `t`. -/
def RunsTo (n : Nat) (s t : State) : Prop := core.run n s = .next t

/-- `t` is reached by a run from `s` (40_dispatch R76). -/
def Reaches (s t : State) : Prop := ∃ n, RunsTo n s t

/-- A launch computes `t`: its run reaches the final state `t` (40_dispatch R78). -/
def Computes (l : Launch) (t : State) : Prop := Reaches (State.launch l) t ∧ t.isFinal = true

/-- The next opcode byte is a defined one (30_encoding R60). -/
def Machine.State.OpcodeDefined (s : State) : Prop := (rowOf (s.read s.pc)).isSome = true

/-- A run from `s` is safe when every state it reaches that is not final has a defined opcode at PC: no step faults. -/
def Safe (s : State) : Prop := ∀ t, Reaches s t → t.isFinal = false → t.OpcodeDefined

end Sys2Proof
end

