-- ==== Sys2Proof/WellFormed.lean ====
section
/-! DEFINITION. Well-formedness: which addressing modes each mnemonic has, from the Encodings line of each instruction rule
(files 41 to 48 of spec/). Operand widths are in the types, so this is the one check an instruction needs. -/

namespace Sys2Proof

/-- The modes of a mnemonic: the Encodings line of its rule. -/
def Mnemonic.modes : Mnemonic → List Mode
  | .lda => [.imm, .zp, .zpx, .abs, .absx, .absy, .indx, .indy]  -- R100
  | .ldx => [.imm, .zp, .zpy, .abs, .absy]  -- R101
  | .ldy => [.imm, .zp, .zpx, .abs, .absx]  -- R102
  | .sta => [.zp, .zpx, .abs, .absx, .absy, .indx, .indy]  -- R103
  | .stx => [.zp, .zpy, .abs]  -- R104
  | .sty => [.zp, .zpx, .abs]  -- R105
  | .adc | .sbc => [.imm, .zp, .zpx, .abs, .absx, .absy, .indx, .indy]  -- R110, R111
  | .inc | .dec => [.zp, .zpx, .abs, .absx]  -- R115, R116
  | .inx | .iny | .dex | .dey => [.imp]  -- R117–R120
  | .tax | .tay | .txa | .tya | .tsx | .txs => [.imp]  -- R125–R130
  | .and | .eor | .ora => [.imm, .zp, .zpx, .abs, .absx, .absy, .indx, .indy]  -- R135–R137
  | .cmp => [.imm, .zp, .zpx, .abs, .absx, .absy, .indx, .indy]  -- R139
  | .cpx | .cpy => [.imm, .zp, .abs]  -- R140, R141
  | .bit => [.zp, .abs]  -- R142
  | .asl | .lsr | .rol | .ror => [.acc, .zp, .zpx, .abs, .absx]  -- R150–R154
  | .clc | .cld | .cli | .clv | .sec | .sed | .sei | .nop => [.imp]  -- R160–R167
  | .pha | .php | .pla | .plp => [.imp]  -- R171–R174
  | .bcc | .bcs | .beq | .bmi | .bne | .bpl | .bvc | .bvs => [.rel]  -- R181–R188
  | .jmp => [.abs, .ind]  -- R189, R190
  | .jsr => [.abs]  -- R191
  | .rts | .brk | .rti => [.imp]  -- R192–R194

/-- The mnemonic has an encoding in the mode. -/
def Mnemonic.takes (m : Mnemonic) (mode : Mode) : Bool := m.modes.contains mode

/-- A pair of a mnemonic and an operand form is well formed when the mnemonic has the form's mode. -/
def Form.wfFor (f : Form) (m : Mnemonic) : Bool := m.takes f.mode

/-- An instruction is well formed when its mnemonic has its mode. Every term of `Instr` is (Laws/Syntax.lean). -/
def Instr.wf (i : Instr) : Bool := i.form.wfFor i.mnemonic

end Sys2Proof
end

