-- ==== Sys2Proof/Certificates/Slice0/Obligations.lean ====
section
/-! DEFINITION. The statements for the provers. Each docstring names the rules of spec/ it formalises. -/

namespace Sys2Proof.Claims

open Sys2Proof.Machine

/-- The encodings the table gives a mnemonic: mode and opcode byte, in opcode order. -/
def encodings (m : Mnemonic) : List (Mode × Byte) :=
  (opcodeTable.filter (fun r => r.mnemonic == m)).map (fun r => (r.mode, r.opcode))

/-- `setNZ(r)` as 10_state R27 and the source's E1 (95_test_vectors) say it: Zero iff `r == 0`, Negative iff `r >= 128`. -/
def withNZ (p : Flags) (r : Byte) : Flags := { p with z := decide (r.toNat = 0), n := decide (128 ≤ r.toNat) }

/-- Between `s` and `t`, the cell `addr` takes the byte `v` and every other cell keeps its own. -/
def OneCellWritten (s t : State) (addr : Word) (v : Byte) : Prop :=
  t.read addr = v ∧ ∀ b : Word, b ≠ addr → t.read b = s.read b

/-- The `n` bytes at PC. -/
def bytesAtPc (s : State) (n : Nat) : List Byte := (List.range n).map (fun k => s.read (s.pc + BitVec.ofNat 16 k))

/-- Not faulted, and no address at one of these distances from PC is in HALT_PC: instructions that start there run. -/
def RunningAt (s : State) (distances : List Nat) : Prop :=
  s.fault = none ∧ ∀ k ∈ distances, s.pc + BitVec.ofNat 16 k ∉ s.haltPc

/-- Instructions executed one after another, stopping at the first that answers no next state. There is no fetch between
them, so PC does not advance: for what does not depend on PC only. -/
def execAll : List Instr → State → Host.Outcome State Fault Refusal
  | [], s => .next s
  | i :: rest, s =>
    match exec i s with
    | .next t => execAll rest t
    | .fault f => .fault f
    | .refused r => .refused r

/-- The 105 illegal opcode bytes, as 30_encoding R62 lists them. -/
def illegalBytes : List Byte :=
  [0x02, 0x03, 0x04, 0x07, 0x0B, 0x0C, 0x0F, 0x12, 0x13, 0x14, 0x17, 0x1A, 0x1B, 0x1C, 0x1F, 0x22, 0x23, 0x27, 0x2B, 0x2F, 0x32]
  ++ [0x33, 0x34, 0x37, 0x3A, 0x3B, 0x3C, 0x3F, 0x42, 0x43, 0x44, 0x47, 0x4B, 0x4F, 0x52, 0x53, 0x54, 0x57, 0x5A, 0x5B, 0x5C, 0x5F]
  ++ [0x62, 0x63, 0x64, 0x67, 0x6B, 0x6F, 0x72, 0x73, 0x74, 0x77, 0x7A, 0x7B, 0x7C, 0x7F, 0x80, 0x82, 0x83, 0x87, 0x89, 0x8B, 0x8F]
  ++ [0x92, 0x93, 0x97, 0x9B, 0x9C, 0x9E, 0x9F, 0xA3, 0xA7, 0xAB, 0xAF, 0xB2, 0xB3, 0xB7, 0xBB, 0xBF, 0xC2, 0xC3, 0xC7, 0xCB, 0xCF]
  ++ [0xD2, 0xD3, 0xD4, 0xD7, 0xDA, 0xDB, 0xDC, 0xDF, 0xE2, 0xE3, 0xE7, 0xEB, 0xEF, 0xF2, 0xF3, 0xF4, 0xF7, 0xFA, 0xFB, 0xFC, 0xFF]

/-- The writers of A (10_state R21); the shifts in accumulator mode only. -/
def writersOfA : List Mnemonic := [.lda, .adc, .sbc, .and, .eor, .ora, .txa, .tya, .pla]

/-- The shifts and rotates (45_shift_rotate). -/
def shifts : List Mnemonic := [.asl, .lsr, .rol, .ror]

/-- The writers of X (10_state R22). -/
def writersOfX : List Mnemonic := [.ldx, .tax, .tsx, .inx, .dex]

/-- The writers of Y (10_state R23). -/
def writersOfY : List Mnemonic := [.ldy, .tay, .iny, .dey]

/-- The writers of SP (10_state R24): TXS, every push and every pull, JSR, RTS, BRK and RTI. -/
def writersOfSp : List Mnemonic := [.txs, .pha, .php, .pla, .plp, .jsr, .rts, .brk, .rti]

/-- The instructions whose rule lists N and Z through setNZ (files 41 to 47). -/
def settersOfNZ : List Mnemonic :=
  [.lda, .ldx, .ldy, .adc, .sbc, .inc, .dec, .inx, .iny, .dex, .dey, .tax, .tay, .txa, .tya, .tsx, .and, .eor, .ora, .cmp,
    .cpx, .cpy, .asl, .lsr, .rol, .ror, .pla]

/-- The writers of each flag (10_state R29–R34). -/
def writersOfFlag : Flag → List Mnemonic
  | .c => [.adc, .sbc, .cmp, .cpx, .cpy, .asl, .lsr, .rol, .ror, .clc, .sec, .plp, .rti]
  | .z => settersOfNZ ++ [.bit, .plp, .rti]
  | .n => settersOfNZ ++ [.bit, .plp, .rti]
  | .i => [.cli, .sei, .brk, .plp, .rti]
  | .d => [.cld, .sed, .plp, .rti]
  | .v => [.adc, .sbc, .bit, .clv, .plp, .rti]

/-- The instructions of 48_control, which overwrite PC. -/
def controlTransfers : List Mnemonic :=
  [.bcc, .bcs, .beq, .bmi, .bne, .bpl, .bvc, .bvs, .jmp, .jsr, .rts, .brk, .rti]

/-- The instructions that write memory (20_memory R46): stores, pushes, and INC and DEC; the shifts in a memory mode only. -/
def writersOfMemory : List Mnemonic := [.sta, .stx, .sty, .inc, .dec, .pha, .php, .jsr, .brk]

end Sys2Proof.Claims

open Sys2Proof Sys2Proof.Machine Sys2Proof.Claims

/-! ### Launch, invariant, encoding, step -/

/-- 70_reset R220, R221, R222, R225: the state a launch starts in, for every value of the launch parameters; a cell the
loader did not write holds 0, and a zero byte is BRK (its row in 30_encoding R74). That State carries HALT_PC is the model's
choice (log 2, DESIGN CHOICE). -/
def Obligations.LaunchStartsInTheResetState : Prop :=
  (∀ l : Launch,
    (State.launch l).a = 0x00 ∧ (State.launch l).x = 0x00 ∧ (State.launch l).y = 0x00 ∧
    (∀ f : Flag, (State.launch l).flag f = false) ∧
    (State.launch l).pc = l.entryPc ∧ (State.launch l).sp = l.spReset ∧
    (State.launch l).fault = none ∧ (State.launch l).haltPc = l.haltPc ∧
    ∀ addr : Word, (State.launch l).read addr =
      ((l.image.reverse.find? (fun cell => cell.1 == addr)).map Prod.snd).getD 0x00) ∧
  Launch.default.spReset = 0x00 ∧ metaOf 0x00 = { mnemonic := "BRK", length := 1, cycles := 7, label := "implied" }

/-- The invariant holds at reset and at every launch. -/
def Obligations.InvariantHoldsAtEveryLaunch : Prop :=
  State.reset.Inv ∧ ∀ l : Launch, (State.launch l).Inv

/-- Every step keeps the invariant (memory canonical, no fault recorded) and the launch parameter HALT_PC. -/
def Obligations.StepKeepsInvariant : Prop :=
  ∀ s t : State, s.Inv → step s = .next t → t.Inv ∧ t.haltPc = s.haltPc

/-- Two canonical memories that read alike are equal data. -/
def Obligations.CanonicalMemoryIsDeterminedByItsReads : Prop :=
  ∀ m m' : Memory, m.wf = true → m'.wf = true → (∀ addr : Word, m.read addr.toNat = m'.read addr.toNat) → m = m'

/-- Decoding the bytes of an instruction gives it back and leaves the rest, for every instruction and operand. -/
def Obligations.DecodeOfEncodeIsTheInstruction : Prop :=
  ∀ (i : Instr) (rest : List Byte), decode (encode i ++ rest) = .ok i rest

/-- The other direction: bytes that decode are the encoding of what they decode to, so each word has one meaning
(30_encoding R63). -/
def Obligations.DecodedBytesAreTheEncoding : Prop :=
  ∀ (bytes : List Byte) (i : Instr) (rest : List Byte), decode bytes = .ok i rest → bytes = encode i ++ rest

/-- The example encodings of 30_encoding R68 decode to the instructions they stand for, and so do one word of each family. -/
def Obligations.WrittenWordsDecode : Prop :=
  decode [0xE8] = .ok .inx [] ∧ decode [0x0A] = .ok .aslAcc [] ∧ decode [0xA9, 0x10] = .ok (.ldaImm 0x10) [] ∧
  decode [0xA5, 0x20] = .ok (.ldaZp 0x20) [] ∧ decode [0xB6, 0x20] = .ok (.ldxZpy 0x20) [] ∧
  decode [0xBD, 0x34, 0x12] = .ok (.ldaAbsx 0x1234) [] ∧ decode [0x6C, 0x34, 0x12] = .ok (.jmpInd 0x1234) [] ∧
  decode [0xA1, 0x20] = .ok (.ldaIndx 0x20) [] ∧ decode [0xB1, 0x20] = .ok (.ldaIndy 0x20) [] ∧
  decode [0xD0, 0xFE] = .ok (.bne 0xFE) [] ∧ decode [0x69, 0x50] = .ok (.adcImm 0x50) [] ∧
  decode [0xAA] = .ok .tax [] ∧ decode [0x2C, 0x34, 0x12] = .ok (.bitAbs 0x1234) [] ∧
  decode [0x18] = .ok .clc [] ∧ decode [0x48] = .ok .pha [] ∧ decode [0x00, 0xEA] = .ok .brk [0xEA]

/-- 30_encoding R61, R62, R63: an entry is the zero value exactly for the 105 listed bytes, every other length is 1, 2 or 3,
and bytes that begin with an illegal opcode do not decode. -/
def Obligations.IllegalBytesAreTheListedOnes : Prop :=
  illegalBytes.length = 105 ∧
  (∀ op : Byte, op ∈ illegalBytes ↔ metaOf op = { mnemonic := "", length := 0, cycles := 0, label := "" }) ∧
  (∀ op : Byte, op ∉ illegalBytes → (metaOf op).length = 1 ∨ (metaOf op).length = 2 ∨ (metaOf op).length = 3) ∧
  ∀ (op : Byte) (rest : List Byte), op ∈ illegalBytes → decode (op :: rest) = .error (.illegalOpcode op)

/-- 30_encoding R60, R64: the entry of an instruction's opcode byte has its mnemonic and its mode's label and length, which
is the number of its bytes; there are 151 rows, no two of one opcode byte; every instruction has a mode its rule's Encodings
line names. -/
def Obligations.TableEntriesNameTheirInstructions : Prop :=
  opcodeTable.length = 151 ∧ (opcodeTable.map OpcodeRow.opcode).Nodup ∧
  metaOf 0xA9 = { mnemonic := "LDA", length := 2, cycles := 2, label := "immediate" } ∧
  ∀ i : Instr,
    (metaOf i.opcode).mnemonic = i.mnemonic.text ∧ (metaOf i.opcode).label = i.mode.label ∧
    (metaOf i.opcode).length = i.mode.length ∧ (encode i).length = i.mode.length ∧ i.wf = true

/-- 40_dispatch R77, R80, R81: from a state that is neither faulted nor final, the step executes the instruction that the
bytes at PC decode to, in the state whose PC is past those bytes. -/
def Obligations.StepRunsTheDecodedInstruction : Prop :=
  ∀ (s : State) (i : Instr) (rest : List Byte), s.fault = none → s.pc ∉ s.haltPc →
    decode [s.read s.pc, s.read (s.pc + 1), s.read (s.pc + 2)] = .ok i rest →
    step s = exec i { s with pc := s.pc + BitVec.ofNat 16 (encode i).length }

/-- 40_dispatch R79 (and 60_exceptions R202): an opcode byte of table length 0 faults; the faulted state differs from the
state in its `fault` field only, which records the byte and its address. -/
def Obligations.IllegalOpcodeFaultsPrecisely : Prop :=
  ∀ s : State, s.fault = none → s.pc ∉ s.haltPc → (metaOf (s.read s.pc)).length = 0 →
    step s = .fault (.illegalOpcode (s.read s.pc) s.pc
      { s with fault := some (.illegalOpcode (s.read s.pc) s.pc) })

/-- 60_exceptions R200, 40_dispatch R75, R78: no step from a faulted or a final state, and the state an illegal opcode leaves
is faulted and not final. The names of the two fault reasons are the model's (log 5). -/
def Obligations.FaultedAndFinalStatesTakeNoStep : Prop :=
  (∀ (s : State) (cause : Cause), s.fault = some cause → step s = .fault (.noStepFaulted cause)) ∧
  (∀ s : State, s.fault = none → s.pc ∈ s.haltPc → step s = .fault (.noStepFinal s.pc)) ∧
  ∀ (s after : State) (op : Byte) (pc : Word), step s = .fault (.illegalOpcode op pc after) →
    after.fault = some (.illegalOpcode op pc) ∧ after.isFinal = false ∧
    ∀ t : State, step after ≠ .next t

/-- 60_exceptions R201, R210; 20_memory R53; 40_dispatch R75: no instruction raises anything in any state; a step answers a
next state exactly when the state is neither faulted nor final and its opcode byte is defined; nothing is refused. -/
def Obligations.OnlyIllegalOpcodesStopARunningMachine : Prop :=
  (∀ (i : Instr) (s : State), ∃ t, exec i s = .next t) ∧
  (∀ s : State, (∃ t, step s = .next t) ↔
    s.fault = none ∧ s.pc ∉ s.haltPc ∧ s.read s.pc ∉ illegalBytes) ∧
  ∀ (s : State) (r : Refusal), step s ≠ .refused r

/-! ### Addresses, words, the status byte -/

/-- 40_dispatch R85, R86, R89–R92, R94, with the sums and wraps on naturals as those rules write them; R97 beside them. -/
def Obligations.EffectiveAddressesOfTheModes : Prop :=
  ∀ (s : State) (z d v : Byte) (w : Word),
    (ea (.zp z) s).toNat = z.toNat ∧
    (ea (.zpx z) s).toNat = (z.toNat + s.x.toNat) % 256 ∧
    (ea (.zpy z) s).toNat = (z.toNat + s.y.toNat) % 256 ∧
    ea (.abs w) s = w ∧
    (ea (.absx w) s).toNat = (w.toNat + s.x.toNat) % 65536 ∧
    (ea (.absy w) s).toNat = (w.toNat + s.y.toNat) % 65536 ∧
    (ea (.indx z) s).toNat =
      (s.read (BitVec.ofNat 16 ((z.toNat + s.x.toNat) % 256))).toNat
        + 256 * (s.read (BitVec.ofNat 16 ((z.toNat + s.x.toNat + 1) % 256))).toNat ∧
    (ea (.indy z) s).toNat =
      ((s.read (BitVec.ofNat 16 z.toNat)).toNat + 256 * (s.read (BitVec.ofNat 16 ((z.toNat + 1) % 256))).toNat
        + s.y.toNat) % 65536 ∧
    ((relativeTarget d s).toNat : Int) = ((s.pc.toNat : Int) + d.toInt) % 65536 ∧
    readOperand (.imm v) s = v ∧ readOperand .acc s = s.a ∧
    ∀ m : MemMode, readOperand (.mem m) s = s.read (ea m s)

/-- 00_scope R13 and the pairing of R9: the word helpers, little-endian, with their two wraps. -/
def Obligations.WordReadsAreLittleEndian : Prop :=
  ∀ (s : State) (addr : Word) (z : Byte),
    (s.read16 addr).toNat = (s.read addr).toNat + 256 * (s.read (BitVec.ofNat 16 ((addr.toNat + 1) % 65536))).toNat ∧
    (s.zpRead16 z).toNat =
      (s.read (BitVec.ofNat 16 z.toNat)).toNat + 256 * (s.read (BitVec.ofNat 16 ((z.toNat + 1) % 256))).toNat ∧
    (lowByte addr).toNat = addr.toNat % 256 ∧ (highByte addr).toNat = addr.toNat / 256

/-- 10_state R26, R35: the places of the six flags in the status byte; the pushed byte has bits 5 and 4 set, and pulling
discards them. -/
def Obligations.StatusByteLayout : Prop :=
  (∀ p : Flags,
    p.toByte.toNat = 128 * p.n.toNat + 64 * p.v.toNat + 8 * p.d.toNat + 4 * p.i.toNat + 2 * p.z.toNat + p.c.toNat ∧
    p.pushed.toNat = p.toByte.toNat + 48 ∧ Flags.ofByte p.pushed = p) ∧
  ∀ v : Byte, (Flags.ofByte v).pushed = v ||| 0x30

/-! ### Loads and stores -/

/-- 41_load_store R100, R101, R102: LDA (ldaImm ldaZp ldaZpx ldaAbs ldaAbsx ldaAbsy ldaIndx ldaIndy), LDX (ldxImm ldxZp
ldxZpy ldxAbs ldxAbsy) and LDY (ldyImm ldyZp ldyZpx ldyAbs ldyAbsx) always complete; the register takes the operand, N and Z
are written, and nothing else changes. -/
def Obligations.LoadsTakeTheOperandAndSetNZ : Prop :=
  encodings .lda = [(.indx, 0xA1), (.zp, 0xA5), (.imm, 0xA9), (.abs, 0xAD), (.indy, 0xB1), (.zpx, 0xB5), (.absy, 0xB9),
    (.absx, 0xBD)] ∧
  encodings .ldx = [(.imm, 0xA2), (.zp, 0xA6), (.abs, 0xAE), (.zpy, 0xB6), (.absy, 0xBE)] ∧
  encodings .ldy = [(.imm, 0xA0), (.zp, 0xA4), (.abs, 0xAC), (.zpx, 0xB4), (.absx, 0xBC)] ∧
  ∀ (i : Instr) (s : State),
    (i.mnemonic = .lda → ∃ o, i.form = .data o ∧
      exec i s = .next { s with a := readOperand o s, flags := withNZ s.flags (readOperand o s) }) ∧
    (i.mnemonic = .ldx → ∃ o, i.form = .data o ∧
      exec i s = .next { s with x := readOperand o s, flags := withNZ s.flags (readOperand o s) }) ∧
    (i.mnemonic = .ldy → ∃ o, i.form = .data o ∧
      exec i s = .next { s with y := readOperand o s, flags := withNZ s.flags (readOperand o s) })

/-- 41_load_store R103, R104, R105: STA (staZp staZpx staAbs staAbsx staAbsy staIndx staIndy), STX (stxZp stxZpy stxAbs) and
STY (styZp styZpx styAbs) always complete; the cell at the effective address takes the register, every other cell, register
and flag is unchanged. -/
def Obligations.StoresWriteOneCell : Prop :=
  encodings .sta = [(.indx, 0x81), (.zp, 0x85), (.abs, 0x8D), (.indy, 0x91), (.zpx, 0x95), (.absy, 0x99), (.absx, 0x9D)] ∧
  encodings .stx = [(.zp, 0x86), (.abs, 0x8E), (.zpy, 0x96)] ∧
  encodings .sty = [(.zp, 0x84), (.abs, 0x8C), (.zpx, 0x94)] ∧
  ∀ (i : Instr) (s : State),
    (i.mnemonic = .sta → ∃ m t, i.form = .data (.mem m) ∧ exec i s = .next t ∧
      t = { s with mem := t.mem } ∧ OneCellWritten s t (ea m s) s.a) ∧
    (i.mnemonic = .stx → ∃ m t, i.form = .data (.mem m) ∧ exec i s = .next t ∧
      t = { s with mem := t.mem } ∧ OneCellWritten s t (ea m s) s.x) ∧
    (i.mnemonic = .sty → ∃ m t, i.form = .data (.mem m) ∧ exec i s = .next t ∧
      t = { s with mem := t.mem } ∧ OneCellWritten s t (ea m s) s.y)

/-! ### Arithmetic -/

/-- 42_arithmetic R110: ADC (adcImm adcZp adcZpx adcAbs adcAbsx adcAbsy adcIndx adcIndy) on the 9-bit sum; nothing but A, N,
Z, C, V changes. -/
def Obligations.AdcAddsWithCarry : Prop :=
  encodings .adc = [(.indx, 0x61), (.zp, 0x65), (.imm, 0x69), (.abs, 0x6D), (.indy, 0x71), (.zpx, 0x75), (.absy, 0x79),
    (.absx, 0x7D)] ∧
  ∀ (i : Instr) (s : State), i.mnemonic = .adc → ∃ o r, i.form = .data o ∧
    r = BitVec.ofNat 8 ((s.a.toNat + (readOperand o s).toNat + s.flags.c.toNat) % 256) ∧
    exec i s = .next { s with
      a := r
      flags := { withNZ s.flags r with
        c := decide (s.a.toNat + (readOperand o s).toNat + s.flags.c.toNat > 255)
        v := decide ((~~~(s.a ^^^ readOperand o s)) &&& (s.a ^^^ r) &&& 0x80 ≠ 0x00) } }

/-- 42_arithmetic R111: SBC (sbcImm sbcZp sbcZpx sbcAbs sbcAbsx sbcAbsy sbcIndx sbcIndy) on the signed difference, with the
carry in both forms the rule gives; nothing but A, N, Z, C, V changes. -/
def Obligations.SbcSubtractsWithBorrow : Prop :=
  encodings .sbc = [(.indx, 0xE1), (.zp, 0xE5), (.imm, 0xE9), (.abs, 0xED), (.indy, 0xF1), (.zpx, 0xF5), (.absy, 0xF9),
    (.absx, 0xFD)] ∧
  ∀ (i : Instr) (s : State), i.mnemonic = .sbc → ∃ o r diff, i.form = .data o ∧
    diff = (s.a.toNat : Int) - ((readOperand o s).toNat : Int) - (1 - (s.flags.c.toNat : Int)) ∧
    (r.toNat : Int) = diff % 256 ∧ (0 ≤ diff ↔ diff % 65536 < 0x100) ∧
    exec i s = .next { s with
      a := r
      flags := { withNZ s.flags r with
        c := decide (0 ≤ diff)
        v := decide ((s.a ^^^ r) &&& (s.a ^^^ readOperand o s) &&& 0x80 ≠ 0x00) } }

/-- 42_arithmetic R113: V after ADC and SBC is signed overflow. -/
def Obligations.OverflowIsSignedOverflow : Prop :=
  ∀ (i : Instr) (s : State),
    (i.mnemonic = .adc → ∃ o t, i.form = .data o ∧ exec i s = .next t ∧
      (t.flags.v = true ↔
        ¬(-128 ≤ s.a.toInt + (readOperand o s).toInt + (s.flags.c.toNat : Int) ∧
          s.a.toInt + (readOperand o s).toInt + (s.flags.c.toNat : Int) ≤ 127))) ∧
    (i.mnemonic = .sbc → ∃ o t, i.form = .data o ∧ exec i s = .next t ∧
      (t.flags.v = true ↔
        ¬(-128 ≤ s.a.toInt - (readOperand o s).toInt - (1 - (s.flags.c.toNat : Int)) ∧
          s.a.toInt - (readOperand o s).toInt - (1 - (s.flags.c.toNat : Int)) ≤ 127)))

/-- 95_test_vectors law L-b, from R110 and R111: SBC in any form is ADC of the complement of its operand. -/
def Obligations.SbcIsAdcOfTheComplement : Prop :=
  ∀ (i : Instr) (s : State), i.mnemonic = .sbc → ∃ o, i.form = .data o ∧
    exec i s = exec (.adcImm (~~~(readOperand o s))) s

/-- 42_arithmetic R114: ADC and SBC compute in binary whether D is 0 or 1. -/
def Obligations.DecimalFlagDoesNotReachAdcAndSbc : Prop :=
  ∀ (i : Instr) (s : State) (b : Bool), i.mnemonic = .adc ∨ i.mnemonic = .sbc →
    ∃ t, exec i s = .next t ∧
      exec i { s with flags := { s.flags with d := b } } = .next { t with flags := { t.flags with d := b } }

/-- 42_arithmetic R115, R116: INC (incZp incZpx incAbs incAbsx) and DEC (decZp decZpx decAbs decAbsx) always complete: the
cell plus or minus one modulo 256, N and Z from it, nothing else changed. -/
def Obligations.IncAndDecRewriteOneCell : Prop :=
  encodings .inc = [(.zp, 0xE6), (.abs, 0xEE), (.zpx, 0xF6), (.absx, 0xFE)] ∧
  encodings .dec = [(.zp, 0xC6), (.abs, 0xCE), (.zpx, 0xD6), (.absx, 0xDE)] ∧
  ∀ (i : Instr) (s : State),
    (i.mnemonic = .inc → ∃ m t r, i.form = .data (.mem m) ∧ r = BitVec.ofNat 8 (((s.read (ea m s)).toNat + 1) % 256) ∧
      exec i s = .next t ∧ t = { s with mem := t.mem, flags := withNZ s.flags r } ∧ OneCellWritten s t (ea m s) r) ∧
    (i.mnemonic = .dec → ∃ m t r, i.form = .data (.mem m) ∧ r = BitVec.ofNat 8 (((s.read (ea m s)).toNat + 255) % 256) ∧
      exec i s = .next t ∧ t = { s with mem := t.mem, flags := withNZ s.flags r } ∧ OneCellWritten s t (ea m s) r)

/-- 42_arithmetic R117–R120: INX, INY, DEX, DEY. -/
def Obligations.IndexRegistersCountModulo256 : Prop :=
  encodings .inx = [(.imp, 0xE8)] ∧ encodings .iny = [(.imp, 0xC8)] ∧ encodings .dex = [(.imp, 0xCA)] ∧
  encodings .dey = [(.imp, 0x88)] ∧
  ∀ s : State,
    exec .inx s = .next { s with
      x := BitVec.ofNat 8 ((s.x.toNat + 1) % 256)
      flags := withNZ s.flags (BitVec.ofNat 8 ((s.x.toNat + 1) % 256)) } ∧
    exec .iny s = .next { s with
      y := BitVec.ofNat 8 ((s.y.toNat + 1) % 256)
      flags := withNZ s.flags (BitVec.ofNat 8 ((s.y.toNat + 1) % 256)) } ∧
    exec .dex s = .next { s with
      x := BitVec.ofNat 8 ((s.x.toNat + 255) % 256)
      flags := withNZ s.flags (BitVec.ofNat 8 ((s.x.toNat + 255) % 256)) } ∧
    exec .dey s = .next { s with
      y := BitVec.ofNat 8 ((s.y.toNat + 255) % 256)
      flags := withNZ s.flags (BitVec.ofNat 8 ((s.y.toNat + 255) % 256)) }

/-! ### Transfers, logic, compares, bit test -/

/-- 43_transfer R125–R130: TAX, TAY, TXA, TYA, TSX copy a register and set N and Z from it; TXS copies X and sets no flag. -/
def Obligations.TransfersCopyARegister : Prop :=
  encodings .tax = [(.imp, 0xAA)] ∧ encodings .tay = [(.imp, 0xA8)] ∧ encodings .txa = [(.imp, 0x8A)] ∧
  encodings .tya = [(.imp, 0x98)] ∧ encodings .tsx = [(.imp, 0xBA)] ∧ encodings .txs = [(.imp, 0x9A)] ∧
  ∀ s : State,
    exec .tax s = .next { s with x := s.a, flags := withNZ s.flags s.a } ∧
    exec .tay s = .next { s with y := s.a, flags := withNZ s.flags s.a } ∧
    exec .txa s = .next { s with a := s.x, flags := withNZ s.flags s.x } ∧
    exec .tya s = .next { s with a := s.y, flags := withNZ s.flags s.y } ∧
    exec .tsx s = .next { s with x := s.sp, flags := withNZ s.flags s.sp } ∧
    exec .txs s = .next { s with sp := s.x }

/-- 44_logic_compare R135, R136, R137: AND, EOR, ORA, each in its eight forms (Imm Zp Zpx Abs Absx Absy Indx Indy). -/
def Obligations.LogicCombinesAWithTheOperand : Prop :=
  encodings .and = [(.indx, 0x21), (.zp, 0x25), (.imm, 0x29), (.abs, 0x2D), (.indy, 0x31), (.zpx, 0x35), (.absy, 0x39),
    (.absx, 0x3D)] ∧
  encodings .eor = [(.indx, 0x41), (.zp, 0x45), (.imm, 0x49), (.abs, 0x4D), (.indy, 0x51), (.zpx, 0x55), (.absy, 0x59),
    (.absx, 0x5D)] ∧
  encodings .ora = [(.indx, 0x01), (.zp, 0x05), (.imm, 0x09), (.abs, 0x0D), (.indy, 0x11), (.zpx, 0x15), (.absy, 0x19),
    (.absx, 0x1D)] ∧
  ∀ (i : Instr) (s : State),
    (i.mnemonic = .and → ∃ o, i.form = .data o ∧
      exec i s = .next { s with a := s.a &&& readOperand o s, flags := withNZ s.flags (s.a &&& readOperand o s) }) ∧
    (i.mnemonic = .eor → ∃ o, i.form = .data o ∧
      exec i s = .next { s with a := s.a ^^^ readOperand o s, flags := withNZ s.flags (s.a ^^^ readOperand o s) }) ∧
    (i.mnemonic = .ora → ∃ o, i.form = .data o ∧
      exec i s = .next { s with a := s.a ||| readOperand o s, flags := withNZ s.flags (s.a ||| readOperand o s) })

/-- 44_logic_compare R138–R141: CMP (cmpImm cmpZp cmpZpx cmpAbs cmpAbsx cmpAbsy cmpIndx cmpIndy), CPX (cpxImm cpxZp cpxAbs)
and CPY (cpyImm cpyZp cpyAbs): Z iff equal, C iff `reg >= m` unsigned, N bit 7 of the difference modulo 256; no register, no
memory and no other flag changes. -/
def Obligations.ComparesSetFlagsOnly : Prop :=
  encodings .cmp = [(.indx, 0xC1), (.zp, 0xC5), (.imm, 0xC9), (.abs, 0xCD), (.indy, 0xD1), (.zpx, 0xD5), (.absy, 0xD9),
    (.absx, 0xDD)] ∧
  encodings .cpx = [(.imm, 0xE0), (.zp, 0xE4), (.abs, 0xEC)] ∧
  encodings .cpy = [(.imm, 0xC0), (.zp, 0xC4), (.abs, 0xCC)] ∧
  ∀ (i : Instr) (s : State) (reg : Byte),
    (i.mnemonic = .cmp ∧ reg = s.a ∨ i.mnemonic = .cpx ∧ reg = s.x ∨ i.mnemonic = .cpy ∧ reg = s.y) →
    ∃ o, i.form = .data o ∧ exec i s = .next { s with
      flags := { s.flags with
        z := decide (reg = readOperand o s)
        c := decide ((readOperand o s).toNat ≤ reg.toNat)
        n := decide (128 ≤ (reg.toNat + 256 - (readOperand o s).toNat) % 256) } }

/-- 44_logic_compare R142: BIT (bitZp bitAbs): Z from `A & m`, V and N from bits 6 and 7 of m. -/
def Obligations.BitTestsMemoryAgainstA : Prop :=
  encodings .bit = [(.zp, 0x24), (.abs, 0x2C)] ∧
  ∀ (i : Instr) (s : State), i.mnemonic = .bit → ∃ m, i.form = .data (.mem m) ∧
    exec i s = .next { s with
      flags := { s.flags with
        z := decide (s.a &&& s.read (ea m s) = 0x00)
        v := decide (64 ≤ (s.read (ea m s)).toNat % 128)
        n := decide (128 ≤ (s.read (ea m s)).toNat) } }

/-! ### Shifts and rotates -/

/-- 45_shift_rotate R150–R154. The accumulator forms (aslAcc lsrAcc rolAcc rorAcc): the value and the carry on naturals;
nothing but A, N, Z, C changes. The memory forms (Zp Zpx Abs Absx of asl, lsr, rol, ror): the same function on the cell at the
effective address, written back to it; no other cell, no register and no other flag changes. -/
def Obligations.ShiftsRewriteTheirOperand : Prop :=
  encodings .asl = [(.zp, 0x06), (.acc, 0x0A), (.abs, 0x0E), (.zpx, 0x16), (.absx, 0x1E)] ∧
  encodings .lsr = [(.zp, 0x46), (.acc, 0x4A), (.abs, 0x4E), (.zpx, 0x56), (.absx, 0x5E)] ∧
  encodings .rol = [(.zp, 0x26), (.acc, 0x2A), (.abs, 0x2E), (.zpx, 0x36), (.absx, 0x3E)] ∧
  encodings .ror = [(.zp, 0x66), (.acc, 0x6A), (.abs, 0x6E), (.zpx, 0x76), (.absx, 0x7E)] ∧
  (∀ (s : State) (v c : Nat), v = s.a.toNat → c = s.flags.c.toNat →
    exec .aslAcc s = .next { s with
      a := BitVec.ofNat 8 (2 * v)
      flags := { withNZ s.flags (BitVec.ofNat 8 (2 * v)) with c := decide (128 ≤ v) } } ∧
    exec .lsrAcc s = .next { s with
      a := BitVec.ofNat 8 (v / 2)
      flags := { withNZ s.flags (BitVec.ofNat 8 (v / 2)) with c := decide (v % 2 = 1) } } ∧
    exec .rolAcc s = .next { s with
      a := BitVec.ofNat 8 (2 * v + c)
      flags := { withNZ s.flags (BitVec.ofNat 8 (2 * v + c)) with c := decide (128 ≤ v) } } ∧
    exec .rorAcc s = .next { s with
      a := BitVec.ofNat 8 (v / 2 + 128 * c)
      flags := { withNZ s.flags (BitVec.ofNat 8 (v / 2 + 128 * c)) with c := decide (v % 2 = 1) } }) ∧
  ∀ (i : Instr) (s : State) (m : MemMode), i.mnemonic ∈ shifts → i.form = .data (.mem m) →
    ∃ t r out, exec i s = .next t ∧ OneCellWritten s t (ea m s) r ∧
      t = { s with mem := t.mem, flags := { withNZ s.flags r with c := out } } ∧
      (i.mnemonic = .asl → r = BitVec.ofNat 8 (2 * (s.read (ea m s)).toNat) ∧ out = (s.read (ea m s)).getLsbD 7) ∧
      (i.mnemonic = .lsr → r = BitVec.ofNat 8 ((s.read (ea m s)).toNat / 2) ∧ out = (s.read (ea m s)).getLsbD 0) ∧
      (i.mnemonic = .rol → r = BitVec.ofNat 8 (2 * (s.read (ea m s)).toNat + s.flags.c.toNat) ∧
        out = (s.read (ea m s)).getLsbD 7) ∧
      (i.mnemonic = .ror → r = BitVec.ofNat 8 ((s.read (ea m s)).toNat / 2 + 128 * s.flags.c.toNat) ∧
        out = (s.read (ea m s)).getLsbD 0)

/-- 95_test_vectors law L-e, from R152, R153: nine rotates of the accumulator restore it and the carry. -/
def Obligations.NineRotatesRestore : Prop :=
  ∀ (i : Instr) (s : State), i = .rolAcc ∨ i = .rorAcc →
    ∃ t, execAll (List.replicate 9 i) s = .next t ∧ t.a = s.a ∧ t.flags.c = s.flags.c

/-! ### Flags and NOP -/

/-- 46_flags_nop R160–R167: each flag instruction writes its one flag and nothing else; NOP changes nothing. -/
def Obligations.FlagInstructionsWriteOneFlag : Prop :=
  encodings .clc = [(.imp, 0x18)] ∧ encodings .cld = [(.imp, 0xD8)] ∧ encodings .cli = [(.imp, 0x58)] ∧
  encodings .clv = [(.imp, 0xB8)] ∧ encodings .sec = [(.imp, 0x38)] ∧ encodings .sed = [(.imp, 0xF8)] ∧
  encodings .sei = [(.imp, 0x78)] ∧ encodings .nop = [(.imp, 0xEA)] ∧
  ∀ s : State,
    exec .clc s = .next { s with flags := { s.flags with c := false } } ∧
    exec .cld s = .next { s with flags := { s.flags with d := false } } ∧
    exec .cli s = .next { s with flags := { s.flags with i := false } } ∧
    exec .clv s = .next { s with flags := { s.flags with v := false } } ∧
    exec .sec s = .next { s with flags := { s.flags with c := true } } ∧
    exec .sed s = .next { s with flags := { s.flags with d := true } } ∧
    exec .sei s = .next { s with flags := { s.flags with i := true } } ∧
    exec .nop s = .next s

/-! ### Stack -/

/-- 47_stack R170, R171, R172: PHA and PHP write one cell, `0x0100 + SP`, and decrement SP modulo 256; nothing else changes. -/
def Obligations.PushesWriteOneStackCell : Prop :=
  encodings .pha = [(.imp, 0x48)] ∧ encodings .php = [(.imp, 0x08)] ∧
  ∀ (s : State) (cell : Word), cell.toNat = 0x0100 + s.sp.toNat →
    (∃ t, exec .pha s = .next t ∧
      t = { s with sp := BitVec.ofNat 8 ((s.sp.toNat + 255) % 256), mem := t.mem } ∧ OneCellWritten s t cell s.a) ∧
    (∃ t, exec .php s = .next t ∧
      t = { s with sp := BitVec.ofNat 8 ((s.sp.toNat + 255) % 256), mem := t.mem } ∧
      OneCellWritten s t cell (s.flags.toByte ||| 0x30))

/-- 47_stack R170, R173, R174: PLA and PLP increment SP modulo 256 and take the byte at `0x0100 + SP`; memory is unchanged. -/
def Obligations.PullsTakeTheByteAboveSp : Prop :=
  encodings .pla = [(.imp, 0x68)] ∧ encodings .plp = [(.imp, 0x28)] ∧
  ∀ (s : State) (cell : Word), cell.toNat = 0x0100 + (s.sp.toNat + 1) % 256 →
    exec .pla s = .next { s with
      sp := BitVec.ofNat 8 ((s.sp.toNat + 1) % 256)
      a := s.read cell
      flags := withNZ s.flags (s.read cell) } ∧
    exec .plp s = .next { s with
      sp := BitVec.ofNat 8 ((s.sp.toNat + 1) % 256)
      flags := {
        n := (s.read cell).getLsbD 7
        v := (s.read cell).getLsbD 6
        d := (s.read cell).getLsbD 3
        i := (s.read cell).getLsbD 2
        z := (s.read cell).getLsbD 1
        c := (s.read cell).getLsbD 0 } }

/-- 95_test_vectors law L-g, from R170–R174: a pull undoes a push, whatever ran between them, if it left SP and the pushed
cell as they were. -/
def Obligations.PullUndoesPush : Prop :=
  ∀ s : State, ∃ t u, exec .php s = .next t ∧ exec .pha s = .next u ∧
    (∀ t' : State, t'.sp = t.sp → t'.read (stackAddr s.sp) = t.read (stackAddr s.sp) →
      ∃ r, exec .plp t' = .next r ∧ r.flags = s.flags ∧ r.sp = s.sp) ∧
    (∀ u' : State, u'.sp = u.sp → u'.read (stackAddr s.sp) = u.read (stackAddr s.sp) →
      ∃ r, exec .pla u' = .next r ∧ r.a = s.a ∧ r.sp = s.sp ∧ r.flags = withNZ u'.flags s.a)

/-! ### Control transfer -/

/-- 48_control R180–R188: the eight branches always complete and change nothing but PC, which a taken branch moves by the
signed displacement modulo 65536. -/
def Obligations.BranchesMovePcWhenTaken : Prop :=
  encodings .bcc = [(.rel, 0x90)] ∧ encodings .bcs = [(.rel, 0xB0)] ∧ encodings .beq = [(.rel, 0xF0)] ∧
  encodings .bmi = [(.rel, 0x30)] ∧ encodings .bne = [(.rel, 0xD0)] ∧ encodings .bpl = [(.rel, 0x10)] ∧
  encodings .bvc = [(.rel, 0x50)] ∧ encodings .bvs = [(.rel, 0x70)] ∧
  ∀ (s : State) (d : Byte) (target : Word), target = BitVec.ofInt 16 ((s.pc.toNat : Int) + d.toInt) →
    exec (.bcc d) s = .next { s with pc := if s.flags.c = false then target else s.pc } ∧
    exec (.bcs d) s = .next { s with pc := if s.flags.c = true then target else s.pc } ∧
    exec (.beq d) s = .next { s with pc := if s.flags.z = true then target else s.pc } ∧
    exec (.bmi d) s = .next { s with pc := if s.flags.n = true then target else s.pc } ∧
    exec (.bne d) s = .next { s with pc := if s.flags.z = false then target else s.pc } ∧
    exec (.bpl d) s = .next { s with pc := if s.flags.n = false then target else s.pc } ∧
    exec (.bvc d) s = .next { s with pc := if s.flags.v = false then target else s.pc } ∧
    exec (.bvs d) s = .next { s with pc := if s.flags.v = true then target else s.pc }

/-- 48_control R189, R190 with 40_dispatch R93: JMP absolute goes to its operand; JMP indirect (jmpInd) to the word at the
pointer, whose high byte is read without leaving the pointer's page. -/
def Obligations.JumpsGoToTheirTarget : Prop :=
  encodings .jmp = [(.abs, 0x4C), (.ind, 0x6C)] ∧
  ∀ (s : State) (w highAddr : Word), highAddr.toNat = (w &&& 0xFF00).toNat + (w.toNat + 1) % 256 →
    exec (.jmpAbs w) s = .next { s with pc := w } ∧
    exec (.jmpInd w) s = .next { s with
      pc := BitVec.ofNat 16 ((s.read w).toNat + 256 * (s.read highAddr).toNat) }

/-- 48_control R191: JSR pushes `PC - 1`, high byte first, and goes to its operand; nothing else changes. -/
def Obligations.JsrPushesTheReturnAddress : Prop :=
  encodings .jsr = [(.abs, 0x20)] ∧
  ∀ (s : State) (w : Word), ∃ t, exec (.jsr w) s = .next t ∧
    t = { s with pc := w, sp := BitVec.ofNat 8 ((s.sp.toNat + 254) % 256), mem := t.mem } ∧
    t.read (stackAddr s.sp) = BitVec.ofNat 8 (((s.pc.toNat + 65535) % 65536) / 256) ∧
    t.read (stackAddr (s.sp - 1)) = BitVec.ofNat 8 (((s.pc.toNat + 65535) % 65536) % 256) ∧
    ∀ b : Word, b ≠ stackAddr s.sp → b ≠ stackAddr (s.sp - 1) → t.read b = s.read b

/-- 48_control R192: RTS pulls the low byte, then the high byte, and goes to that address plus 1. -/
def Obligations.RtsReturnsPastThePulledAddress : Prop :=
  encodings .rts = [(.imp, 0x60)] ∧
  ∀ s : State, exec .rts s = .next { s with
    sp := BitVec.ofNat 8 ((s.sp.toNat + 2) % 256)
    pc := BitVec.ofNat 16 ((s.read (stackAddr (s.sp + 1))).toNat + 256 * (s.read (stackAddr (s.sp + 2))).toNat + 1) }

/-- 95_test_vectors law L-h, from R191, R192: a subroutine that leaves SP and the two saved bytes as JSR left them returns to
the instruction after the JSR, with SP restored. -/
def Obligations.RtsReturnsAfterTheCall : Prop :=
  ∀ (s : State) (w : Word), ∃ t, exec (.jsr w) s = .next t ∧
    ∀ u : State, u.sp = t.sp → u.read (stackAddr s.sp) = t.read (stackAddr s.sp) →
      u.read (stackAddr (s.sp - 1)) = t.read (stackAddr (s.sp - 1)) →
      ∃ r, exec .rts u = .next r ∧ r.pc = s.pc ∧ r.sp = s.sp

/-- 48_control R193, 60_exceptions R206: BRK pushes `PC + 1` (high, low) and `P | 0x30`, sets I, goes to the word at
0xFFFE; SP falls by 3; D and everything else is unchanged. -/
def Obligations.BrkEntersTheHandler : Prop :=
  encodings .brk = [(.imp, 0x00)] ∧
  ∀ s : State, ∃ t, exec .brk s = .next t ∧
    t = { s with
      pc := BitVec.ofNat 16 ((s.read 0xFFFE).toNat + 256 * (s.read 0xFFFF).toNat)
      sp := BitVec.ofNat 8 ((s.sp.toNat + 253) % 256)
      flags := { s.flags with i := true }
      mem := t.mem } ∧
    t.read (stackAddr s.sp) = BitVec.ofNat 8 (((s.pc.toNat + 1) % 65536) / 256) ∧
    t.read (stackAddr (s.sp - 1)) = BitVec.ofNat 8 (((s.pc.toNat + 1) % 65536) % 256) ∧
    t.read (stackAddr (s.sp - 2)) = s.flags.toByte ||| 0x30 ∧
    ∀ b : Word, b ≠ stackAddr s.sp → b ≠ stackAddr (s.sp - 1) → b ≠ stackAddr (s.sp - 2) → t.read b = s.read b

/-- 48_control R194, 60_exceptions R207: RTI pulls the flags, then the return address, with no adjustment; memory is
unchanged. -/
def Obligations.RtiRestoresFlagsAndPc : Prop :=
  encodings .rti = [(.imp, 0x40)] ∧
  ∀ (s : State) (p : Byte), p = s.read (stackAddr (s.sp + 1)) →
    exec .rti s = .next { s with
      flags := {
        n := p.getLsbD 7
        v := p.getLsbD 6
        d := p.getLsbD 3
        i := p.getLsbD 2
        z := p.getLsbD 1
        c := p.getLsbD 0 }
      sp := BitVec.ofNat 8 ((s.sp.toNat + 3) % 256)
      pc := BitVec.ofNat 16 ((s.read (stackAddr (s.sp + 2))).toNat + 256 * (s.read (stackAddr (s.sp + 3))).toNat) }

/-- 95_test_vectors law L-i, from R193, R194: a handler that leaves SP and the three saved bytes as BRK left them returns to
PC + 1 (the address of the BRK plus 2) with all six flags, I among them, and SP restored. -/
def Obligations.RtiReturnsFromTheHandler : Prop :=
  ∀ s : State, ∃ t, exec .brk s = .next t ∧
    ∀ u : State, u.sp = t.sp → u.read (stackAddr s.sp) = t.read (stackAddr s.sp) →
      u.read (stackAddr (s.sp - 1)) = t.read (stackAddr (s.sp - 1)) →
      u.read (stackAddr (s.sp - 2)) = t.read (stackAddr (s.sp - 2)) →
      ∃ r, exec .rti u = .next r ∧ r.pc = s.pc + 1 ∧ r.sp = s.sp ∧ r.flags = s.flags

/-- 60_exceptions R208, from R170 and R193: BRKs one inside another, the first fetched at PC and each later one at the
handler's address, where the vector leads to a BRK byte outside page 1. Up to 85 of them keep the oldest saved byte (the high
byte of the first BRK's address plus 2) and leave one cell of page 1 alone; the 86th overwrites the oldest byte, with the low
byte of its own address plus 2, which is its second push (log 7, DEDUCED). -/
def Obligations.NestedBrksFillTheStackPage : Prop :=
  ∀ (s : State) (handler : Word), s.fault = none → s.pc ∉ s.haltPc → handler ∉ s.haltPc →
    s.read s.pc = 0x00 → handler = s.read16 brkVector → s.read handler = 0x00 → handler.toNat / 256 ≠ 1 →
    (∀ n : Nat, 1 ≤ n → n ≤ 85 → ∃ t, RunsTo n s t ∧ t.pc = handler ∧ t.sp = s.sp - BitVec.ofNat 8 (3 * n) ∧
      t.read (stackAddr s.sp) = highByte (s.pc + 2) ∧
      t.read (stackAddr (s.sp + 1)) = s.read (stackAddr (s.sp + 1))) ∧
    ∃ t, RunsTo 86 s t ∧ t.pc = handler ∧ t.read (stackAddr s.sp) = lowByte (handler + 2)

/-- 48_control R193 (corner cases), 70_reset R222: with zero at 0x0000 and in the vector, BRK loops at 0x0000, three stack
bytes an iteration; registers A, X, Y and every cell outside page 1 stay as they were. -/
def Obligations.BrkLoopsThroughAZeroVector : Prop :=
  ∀ (s : State) (n : Nat), s.fault = none → 0x0000 ∉ s.haltPc → s.pc = 0x0000 → s.read 0x0000 = 0x00 →
    s.read 0xFFFE = 0x00 → s.read 0xFFFF = 0x00 →
    ∃ t, RunsTo n s t ∧ t.pc = 0x0000 ∧ t.sp = s.sp - BitVec.ofNat 8 (3 * n) ∧
      t.a = s.a ∧ t.x = s.x ∧ t.y = s.y ∧ (1 ≤ n → t.flags = { s.flags with i := true }) ∧
      ∀ b : Word, b.toNat / 256 ≠ 1 → t.read b = s.read b

/-! ### Whole-machine rules -/

/-- 40_dispatch R99: two instructions of one mnemonic whose operands have the same value change registers and flags alike, in
states that agree on registers and flags; the mode decides only where a result goes. -/
def Obligations.FlagsDoNotDependOnTheMode : Prop :=
  ∀ (i j : Instr) (s u : State) (o p : Operand), i.mnemonic = j.mnemonic →
    i.mnemonic ∉ [Mnemonic.sta, .stx, .sty, .jmp, .jsr] → i.form = .data o → j.form = .data p →
    readOperand o s = readOperand p u →
    u.a = s.a → u.x = s.x → u.y = s.y → u.sp = s.sp → u.pc = s.pc → u.flags = s.flags →
    ∃ s' u', exec i s = .next s' ∧ exec j u = .next u' ∧
      u'.flags = s'.flags ∧ u'.x = s'.x ∧ u'.y = s'.y ∧ u'.sp = s'.sp ∧ u'.pc = s'.pc ∧
      (o ≠ .acc → p ≠ .acc → u'.a = s'.a) ∧
      (o = .acc → ∀ m, p = .mem m → s'.a = u'.read (ea m u))

/-- 10_state R21–R24: A, X, Y and SP change only by the instructions those rules name as their writers. -/
def Obligations.RegistersChangeOnlyByTheirWriters : Prop :=
  ∀ (i : Instr) (s : State), ∃ t, exec i s = .next t ∧
    (i.mnemonic ∉ writersOfA → ¬(i.mnemonic ∈ shifts ∧ i.form = .data .acc) → t.a = s.a) ∧
    (i.mnemonic ∉ writersOfX → t.x = s.x) ∧ (i.mnemonic ∉ writersOfY → t.y = s.y) ∧
    (i.mnemonic ∉ writersOfSp → t.sp = s.sp) ∧ t.fault = s.fault ∧ t.haltPc = s.haltPc

/-- 10_state R29–R34: each flag changes only by the instructions its rule names as its writers. -/
def Obligations.FlagsChangeOnlyByTheirWriters : Prop :=
  ∀ (i : Instr) (s : State) (f : Flag), i.mnemonic ∉ writersOfFlag f → ∃ t, exec i s = .next t ∧ t.flag f = s.flag f

/-- 40_dispatch R81: an instruction that is no control transfer leaves PC at the next instruction. -/
def Obligations.OnlyControlTransfersMovePc : Prop :=
  ∀ (i : Instr) (s : State), i.mnemonic ∉ controlTransfers → ∃ t, exec i s = .next t ∧ t.pc = s.pc

/-- 20_memory R46, R47; 47_stack R170: only stores, pushes and read-modify-write forms change memory; pushes change page 1
only. -/
def Obligations.OnlyStoresChangeMemory : Prop :=
  ∀ (i : Instr) (s : State), ∃ t, exec i s = .next t ∧
    (i.mnemonic ∉ writersOfMemory → (i.mnemonic ∈ shifts → i.form = .data .acc) → t.mem = s.mem) ∧
    (i.mnemonic ∈ [Mnemonic.pha, .php, .jsr, .brk] → ∀ b : Word, b.toNat / 256 ≠ 1 → t.read b = s.read b)

/-- 10_state R31, R32; 60_exceptions R204: I and D are read by PHP and BRK only: every other instruction does the same
whatever they hold. -/
def Obligations.InterruptAndDecimalFlagsGateNothing : Prop :=
  ∀ (i : Instr) (s : State) (f : Flag) (b : Bool), f = .i ∨ f = .d → i.mnemonic ≠ .php → i.mnemonic ≠ .brk →
    ∃ t, exec i s = .next t ∧
      exec i (s.setFlag f b) = .next (if i.mnemonic ∈ writersOfFlag f then t else t.setFlag f b)

/-- 20_memory R54, 70_reset R230: a NOP that STA absolute stores over the next opcode is what the very next step executes. -/
def Obligations.StoredOpcodeIsFetchedNext : Prop :=
  ∀ s : State, s.fault = none → s.pc ∉ s.haltPc → s.pc + 3 ∉ s.haltPc → s.a = 0xEA →
    s.read s.pc = 0x8D → s.read (s.pc + 1) = lowByte (s.pc + 3) → s.read (s.pc + 2) = highByte (s.pc + 3) →
    ∃ t, step s = .next t ∧ t.pc = s.pc + 3 ∧ step t = .next { t with pc := s.pc + 4 }

/-- 20_memory R54, 70_reset R230: an STA absolute that overwrites its own first byte has already been fetched and executes
as fetched. -/
def Obligations.SelfOverwritingStoreRunsAsFetched : Prop :=
  ∀ s : State, s.fault = none → s.pc ∉ s.haltPc →
    s.read s.pc = 0x8D → s.read (s.pc + 1) = lowByte s.pc → s.read (s.pc + 2) = highByte s.pc →
    ∃ t, step s = .next t ∧ t = { s with pc := s.pc + 3, mem := t.mem } ∧ OneCellWritten s t s.pc s.a

/-- 30_encoding R69: the idioms, with their bytes at PC, run by the step. CLC then any ADC adds without carry, SEC then any
SBC subtracts without borrow, EOR #$FF then CLC then ADC #$01 negates A, and CLV then BVC always branches, from the address
after the BVC. -/
def Obligations.IdiomsDoWhatTheyAreUsedFor : Prop :=
  ∀ s : State,
    (∀ (i : Instr) (rest : List Byte), RunningAt s [0, 1] → s.read s.pc = 0x18 → i.mnemonic = .adc →
      decode [s.read (s.pc + 1), s.read (s.pc + 2), s.read (s.pc + 3)] = .ok i rest →
      ∃ o t, i.form = .data o ∧ RunsTo 2 s t ∧ t.pc = s.pc + 1 + BitVec.ofNat 16 (encode i).length ∧
        t.a.toNat = (s.a.toNat + (readOperand o s).toNat) % 256) ∧
    (∀ (i : Instr) (rest : List Byte), RunningAt s [0, 1] → s.read s.pc = 0x38 → i.mnemonic = .sbc →
      decode [s.read (s.pc + 1), s.read (s.pc + 2), s.read (s.pc + 3)] = .ok i rest →
      ∃ o t, i.form = .data o ∧ RunsTo 2 s t ∧ t.pc = s.pc + 1 + BitVec.ofNat 16 (encode i).length ∧
        (t.a.toNat : Int) = ((s.a.toNat : Int) - (readOperand o s).toNat) % 256) ∧
    (RunningAt s [0, 2, 3] → bytesAtPc s 5 = [0x49, 0xFF, 0x18, 0x69, 0x01] →
      ∃ t, RunsTo 3 s t ∧ t.pc = s.pc + 5 ∧ (t.a.toNat : Int) = (-(s.a.toNat : Int)) % 256) ∧
    ∀ d : Byte, RunningAt s [0, 1] → bytesAtPc s 3 = [0xB8, 0x50, d] →
      ∃ t, RunsTo 2 s t ∧ (t.pc.toNat : Int) = ((s.pc.toNat : Int) + 3 + d.toInt) % 65536

/-- 70_reset R234: the cycles of a branch, in the state after its fetch: 2 not taken, 3 taken within the page of the next
instruction, 4 taken to another page. That `cycles` is taken in that state is the model's reading (log 10, DESIGN CHOICE and DEDUCED,
unsafe for claims about time). No step reads them (R232). -/
def Obligations.BranchCycles : Prop :=
  ∀ (s : State) (d : Byte) (taken : Nat),
    taken = (if s.pc.toNat / 256 = ((BitVec.ofInt 16 ((s.pc.toNat : Int) + d.toInt)).toNat) / 256 then 3 else 4) →
    cycles (.bcc d) s = (if s.flags.c = false then taken else 2) ∧
    cycles (.bcs d) s = (if s.flags.c = true then taken else 2) ∧
    cycles (.beq d) s = (if s.flags.z = true then taken else 2) ∧
    cycles (.bmi d) s = (if s.flags.n = true then taken else 2) ∧
    cycles (.bne d) s = (if s.flags.z = false then taken else 2) ∧
    cycles (.bpl d) s = (if s.flags.n = false then taken else 2) ∧
    cycles (.bvc d) s = (if s.flags.v = false then taken else 2) ∧
    cycles (.bvs d) s = (if s.flags.v = true then taken else 2)

/-- 70_reset R233: an instruction that reads through absolute,X, absolute,Y or (indirect),Y takes one cycle more when the
index crosses a page; stores and read-modify-write instructions in those modes take their base count. That `cycles` is taken
in the state after the fetch is the model's reading (log 10, DESIGN CHOICE and DEDUCED, unsafe for claims about time). -/
def Obligations.PageCrossingCycles : Prop :=
  ∀ (i : Instr) (s : State) (m : MemMode), i.form = .data (.mem m) →
    i.mode = .absx ∨ i.mode = .absy ∨ i.mode = .indy →
    cycles i s = (metaOf i.opcode).cycles +
      (if i.mnemonic ∈ [Mnemonic.sta, .inc, .dec, .asl, .lsr, .rol, .ror] then 0
      else if (ea m s).toNat / 256 = (unindexed m s).toNat / 256 then 0 else 1)

/-- 20_memory R42, R48: the address map names one use for every address, and none behaves differently: a byte stored
anywhere, a mirror or a device register, is read back there, and a store to 0x0800 leaves 0x0000 alone. -/
def Obligations.AddressMapIsNotEnforced : Prop :=
  (∀ addr : Word, ∃ use, regionUse addr = some use ∧
    ∀ r ∈ addressMap, r.first ≤ addr.toNat → addr.toNat ≤ r.last → r.use = use) ∧
  ∀ (s : State) (addr : Word), ∃ t u, exec (.staAbs addr) s = .next t ∧ t.read addr = s.a ∧
    exec (.staAbs 0x0800) s = .next u ∧ u.read 0x0000 = s.read 0x0000
end

