-- ==== Sys2Proof/Laws/Decode.lean ====
section
/-! SUPPORT. The shape of a row of the metadata table: its opcode, its length, and which operand bytes its instruction keeps
(30_encoding R55, R57, R64). -/

namespace Sys2Proof

open Sys2Proof.Machine

/-- The low byte of a pair. -/
@[simp] theorem lowByte_word (lo hi : Byte) : lowByte (word lo hi) = lo := by
  apply BitVec.eq_of_getLsbD_eq
  intro i hi'
  rw [lowByte, word, BitVec.getLsbD_extractLsb', BitVec.getLsbD_append]
  simp [hi']

/-- The high byte of a pair. -/
@[simp] theorem highByte_word (lo hi : Byte) : highByte (word lo hi) = hi := by
  apply BitVec.eq_of_getLsbD_eq
  intro i hi'
  rw [highByte, word, BitVec.getLsbD_extractLsb', BitVec.getLsbD_append]
  simp [hi']

/-- A row builds an instruction of its own opcode byte, whose operand bytes are the first `length - 1` it was given. -/
def OpcodeRow.Ok (r : OpcodeRow) : Prop :=
  ∀ b1 b2 : Byte, (r.make b1 b2).opcode = r.opcode ∧
    (r.length = 1 ∧ (r.make b1 b2).form.bytes = [] ∧ r.make b1 b2 = r.make 0x00 0x00 ∨
      r.length = 2 ∧ (r.make b1 b2).form.bytes = [b1] ∧ r.make b1 b2 = r.make b1 0x00 ∨
      r.length = 3 ∧ (r.make b1 b2).form.bytes = [b1, b2])

theorem bytes_of_word (b1 b2 : Byte) : [lowByte (word b1 b2), highByte (word b1 b2)] = [b1, b2] := by simp

theorem opcodeRows0_ok : ∀ r ∈ opcodeRows0, r.Ok := by
  unfold opcodeRows0
  repeat' refine List.forall_mem_cons.2 ⟨fun b1 b2 => ⟨rfl, ?_⟩, ?_⟩
  all_goals first
    | exact .inl ⟨rfl, rfl, rfl⟩
    | exact .inr (.inl ⟨rfl, rfl, rfl⟩)
    | exact .inr (.inr ⟨rfl, bytes_of_word b1 b2⟩)
    | exact fun _ h => nomatch h

theorem opcodeRows1_ok : ∀ r ∈ opcodeRows1, r.Ok := by
  unfold opcodeRows1
  repeat' refine List.forall_mem_cons.2 ⟨fun b1 b2 => ⟨rfl, ?_⟩, ?_⟩
  all_goals first
    | exact .inl ⟨rfl, rfl, rfl⟩
    | exact .inr (.inl ⟨rfl, rfl, rfl⟩)
    | exact .inr (.inr ⟨rfl, bytes_of_word b1 b2⟩)
    | exact fun _ h => nomatch h

theorem opcodeRows2_ok : ∀ r ∈ opcodeRows2, r.Ok := by
  unfold opcodeRows2
  repeat' refine List.forall_mem_cons.2 ⟨fun b1 b2 => ⟨rfl, ?_⟩, ?_⟩
  all_goals first
    | exact .inl ⟨rfl, rfl, rfl⟩
    | exact .inr (.inl ⟨rfl, rfl, rfl⟩)
    | exact .inr (.inr ⟨rfl, bytes_of_word b1 b2⟩)
    | exact fun _ h => nomatch h

theorem opcodeRows3_ok : ∀ r ∈ opcodeRows3, r.Ok := by
  unfold opcodeRows3
  repeat' refine List.forall_mem_cons.2 ⟨fun b1 b2 => ⟨rfl, ?_⟩, ?_⟩
  all_goals first
    | exact .inl ⟨rfl, rfl, rfl⟩
    | exact .inr (.inl ⟨rfl, rfl, rfl⟩)
    | exact .inr (.inr ⟨rfl, bytes_of_word b1 b2⟩)
    | exact fun _ h => nomatch h

theorem opcodeRows4_ok : ∀ r ∈ opcodeRows4, r.Ok := by
  unfold opcodeRows4
  repeat' refine List.forall_mem_cons.2 ⟨fun b1 b2 => ⟨rfl, ?_⟩, ?_⟩
  all_goals first
    | exact .inl ⟨rfl, rfl, rfl⟩
    | exact .inr (.inl ⟨rfl, rfl, rfl⟩)
    | exact .inr (.inr ⟨rfl, bytes_of_word b1 b2⟩)
    | exact fun _ h => nomatch h

theorem opcodeRows5_ok : ∀ r ∈ opcodeRows5, r.Ok := by
  unfold opcodeRows5
  repeat' refine List.forall_mem_cons.2 ⟨fun b1 b2 => ⟨rfl, ?_⟩, ?_⟩
  all_goals first
    | exact .inl ⟨rfl, rfl, rfl⟩
    | exact .inr (.inl ⟨rfl, rfl, rfl⟩)
    | exact .inr (.inr ⟨rfl, bytes_of_word b1 b2⟩)
    | exact fun _ h => nomatch h

theorem opcodeRows6_ok : ∀ r ∈ opcodeRows6, r.Ok := by
  unfold opcodeRows6
  repeat' refine List.forall_mem_cons.2 ⟨fun b1 b2 => ⟨rfl, ?_⟩, ?_⟩
  all_goals first
    | exact .inl ⟨rfl, rfl, rfl⟩
    | exact .inr (.inl ⟨rfl, rfl, rfl⟩)
    | exact .inr (.inr ⟨rfl, bytes_of_word b1 b2⟩)
    | exact fun _ h => nomatch h

theorem opcodeRows7_ok : ∀ r ∈ opcodeRows7, r.Ok := by
  unfold opcodeRows7
  repeat' refine List.forall_mem_cons.2 ⟨fun b1 b2 => ⟨rfl, ?_⟩, ?_⟩
  all_goals first
    | exact .inl ⟨rfl, rfl, rfl⟩
    | exact .inr (.inl ⟨rfl, rfl, rfl⟩)
    | exact .inr (.inr ⟨rfl, bytes_of_word b1 b2⟩)
    | exact fun _ h => nomatch h

theorem opcodeRows8_ok : ∀ r ∈ opcodeRows8, r.Ok := by
  unfold opcodeRows8
  repeat' refine List.forall_mem_cons.2 ⟨fun b1 b2 => ⟨rfl, ?_⟩, ?_⟩
  all_goals first
    | exact .inl ⟨rfl, rfl, rfl⟩
    | exact .inr (.inl ⟨rfl, rfl, rfl⟩)
    | exact .inr (.inr ⟨rfl, bytes_of_word b1 b2⟩)
    | exact fun _ h => nomatch h

theorem opcodeRows9_ok : ∀ r ∈ opcodeRows9, r.Ok := by
  unfold opcodeRows9
  repeat' refine List.forall_mem_cons.2 ⟨fun b1 b2 => ⟨rfl, ?_⟩, ?_⟩
  all_goals first
    | exact .inl ⟨rfl, rfl, rfl⟩
    | exact .inr (.inl ⟨rfl, rfl, rfl⟩)
    | exact .inr (.inr ⟨rfl, bytes_of_word b1 b2⟩)
    | exact fun _ h => nomatch h

theorem opcodeRowsA_ok : ∀ r ∈ opcodeRowsA, r.Ok := by
  unfold opcodeRowsA
  repeat' refine List.forall_mem_cons.2 ⟨fun b1 b2 => ⟨rfl, ?_⟩, ?_⟩
  all_goals first
    | exact .inl ⟨rfl, rfl, rfl⟩
    | exact .inr (.inl ⟨rfl, rfl, rfl⟩)
    | exact .inr (.inr ⟨rfl, bytes_of_word b1 b2⟩)
    | exact fun _ h => nomatch h

theorem opcodeRowsB_ok : ∀ r ∈ opcodeRowsB, r.Ok := by
  unfold opcodeRowsB
  repeat' refine List.forall_mem_cons.2 ⟨fun b1 b2 => ⟨rfl, ?_⟩, ?_⟩
  all_goals first
    | exact .inl ⟨rfl, rfl, rfl⟩
    | exact .inr (.inl ⟨rfl, rfl, rfl⟩)
    | exact .inr (.inr ⟨rfl, bytes_of_word b1 b2⟩)
    | exact fun _ h => nomatch h

theorem opcodeRowsC_ok : ∀ r ∈ opcodeRowsC, r.Ok := by
  unfold opcodeRowsC
  repeat' refine List.forall_mem_cons.2 ⟨fun b1 b2 => ⟨rfl, ?_⟩, ?_⟩
  all_goals first
    | exact .inl ⟨rfl, rfl, rfl⟩
    | exact .inr (.inl ⟨rfl, rfl, rfl⟩)
    | exact .inr (.inr ⟨rfl, bytes_of_word b1 b2⟩)
    | exact fun _ h => nomatch h

theorem opcodeRowsD_ok : ∀ r ∈ opcodeRowsD, r.Ok := by
  unfold opcodeRowsD
  repeat' refine List.forall_mem_cons.2 ⟨fun b1 b2 => ⟨rfl, ?_⟩, ?_⟩
  all_goals first
    | exact .inl ⟨rfl, rfl, rfl⟩
    | exact .inr (.inl ⟨rfl, rfl, rfl⟩)
    | exact .inr (.inr ⟨rfl, bytes_of_word b1 b2⟩)
    | exact fun _ h => nomatch h

theorem opcodeRowsE_ok : ∀ r ∈ opcodeRowsE, r.Ok := by
  unfold opcodeRowsE
  repeat' refine List.forall_mem_cons.2 ⟨fun b1 b2 => ⟨rfl, ?_⟩, ?_⟩
  all_goals first
    | exact .inl ⟨rfl, rfl, rfl⟩
    | exact .inr (.inl ⟨rfl, rfl, rfl⟩)
    | exact .inr (.inr ⟨rfl, bytes_of_word b1 b2⟩)
    | exact fun _ h => nomatch h

theorem opcodeRowsF_ok : ∀ r ∈ opcodeRowsF, r.Ok := by
  unfold opcodeRowsF
  repeat' refine List.forall_mem_cons.2 ⟨fun b1 b2 => ⟨rfl, ?_⟩, ?_⟩
  all_goals first
    | exact .inl ⟨rfl, rfl, rfl⟩
    | exact .inr (.inl ⟨rfl, rfl, rfl⟩)
    | exact .inr (.inr ⟨rfl, bytes_of_word b1 b2⟩)
    | exact fun _ h => nomatch h

/-- Every row of the table is of that shape. -/
theorem opcodeTable_ok : ∀ r ∈ opcodeTable, r.Ok := by
  intro r hr
  simp only [opcodeTable, List.mem_append, or_assoc] at hr
  rcases hr with h | h | h | h | h | h | h | h | h | h | h | h | h | h | h | h
  · exact opcodeRows0_ok r h
  · exact opcodeRows1_ok r h
  · exact opcodeRows2_ok r h
  · exact opcodeRows3_ok r h
  · exact opcodeRows4_ok r h
  · exact opcodeRows5_ok r h
  · exact opcodeRows6_ok r h
  · exact opcodeRows7_ok r h
  · exact opcodeRows8_ok r h
  · exact opcodeRows9_ok r h
  · exact opcodeRowsA_ok r h
  · exact opcodeRowsB_ok r h
  · exact opcodeRowsC_ok r h
  · exact opcodeRowsD_ok r h
  · exact opcodeRowsE_ok r h
  · exact opcodeRowsF_ok r h

/-- The row of an opcode byte is a row of the table, of that byte. -/
theorem rowOf_mem {op : Byte} {r : OpcodeRow} (h : rowOf op = some r) : r ∈ opcodeTable ∧ r.opcode = op :=
  ⟨List.mem_of_find?_eq_some h, by simpa using List.find?_some h⟩

/-- The row of an opcode byte is of the shape `OpcodeRow.Ok`. -/
theorem rowOf_ok {op : Byte} {r : OpcodeRow} (h : rowOf op = some r) : r.Ok := opcodeTable_ok r (rowOf_mem h).1

end Sys2Proof
end

