-- ==== Sys2Proof/Laws/Exec.lean ====
section
/-! SUPPORT. What `exec` does, by mnemonic: the forms of one mnemonic run one shared operation on their operand
(40_dispatch R82, R99). These lemmas turn a proof over the 151 constructors into one over the 56 mnemonics. -/

namespace Sys2Proof.Machine

theorem exec_of_lda {i : Instr} (h : i.mnemonic = .lda) (s : State) :
    ∃ o, i.form = .data o ∧ exec i s = .next (lda o s) := by
  cases i <;> first
    | (cases h; done)
    | (exact ⟨_, rfl, rfl⟩)

theorem exec_of_ldx {i : Instr} (h : i.mnemonic = .ldx) (s : State) :
    ∃ o, i.form = .data o ∧ exec i s = .next (ldx o s) := by
  cases i <;> first
    | (cases h; done)
    | (exact ⟨_, rfl, rfl⟩)

theorem exec_of_ldy {i : Instr} (h : i.mnemonic = .ldy) (s : State) :
    ∃ o, i.form = .data o ∧ exec i s = .next (ldy o s) := by
  cases i <;> first
    | (cases h; done)
    | (exact ⟨_, rfl, rfl⟩)

theorem exec_of_sta {i : Instr} (h : i.mnemonic = .sta) (s : State) :
    ∃ m, i.form = .data (.mem m) ∧ exec i s = .next (sta m s) := by
  cases i <;> first
    | (cases h; done)
    | (exact ⟨_, rfl, rfl⟩)

theorem exec_of_stx {i : Instr} (h : i.mnemonic = .stx) (s : State) :
    ∃ m, i.form = .data (.mem m) ∧ exec i s = .next (stx m s) := by
  cases i <;> first
    | (cases h; done)
    | (exact ⟨_, rfl, rfl⟩)

theorem exec_of_sty {i : Instr} (h : i.mnemonic = .sty) (s : State) :
    ∃ m, i.form = .data (.mem m) ∧ exec i s = .next (sty m s) := by
  cases i <;> first
    | (cases h; done)
    | (exact ⟨_, rfl, rfl⟩)

theorem exec_of_adc {i : Instr} (h : i.mnemonic = .adc) (s : State) :
    ∃ o, i.form = .data o ∧ exec i s = .next (adc o s) := by
  cases i <;> first
    | (cases h; done)
    | (exact ⟨_, rfl, rfl⟩)

theorem exec_of_sbc {i : Instr} (h : i.mnemonic = .sbc) (s : State) :
    ∃ o, i.form = .data o ∧ exec i s = .next (sbc o s) := by
  cases i <;> first
    | (cases h; done)
    | (exact ⟨_, rfl, rfl⟩)

theorem exec_of_inc {i : Instr} (h : i.mnemonic = .inc) (s : State) :
    ∃ m, i.form = .data (.mem m) ∧ exec i s = .next (inc m s) := by
  cases i <;> first
    | (cases h; done)
    | (exact ⟨_, rfl, rfl⟩)

theorem exec_of_dec {i : Instr} (h : i.mnemonic = .dec) (s : State) :
    ∃ m, i.form = .data (.mem m) ∧ exec i s = .next (dec m s) := by
  cases i <;> first
    | (cases h; done)
    | (exact ⟨_, rfl, rfl⟩)

theorem exec_of_inx {i : Instr} (h : i.mnemonic = .inx) : i = .inx := by
  cases i <;> first
    | (cases h; done)
    | rfl

theorem exec_of_iny {i : Instr} (h : i.mnemonic = .iny) : i = .iny := by
  cases i <;> first
    | (cases h; done)
    | rfl

theorem exec_of_dex {i : Instr} (h : i.mnemonic = .dex) : i = .dex := by
  cases i <;> first
    | (cases h; done)
    | rfl

theorem exec_of_dey {i : Instr} (h : i.mnemonic = .dey) : i = .dey := by
  cases i <;> first
    | (cases h; done)
    | rfl

theorem exec_of_tax {i : Instr} (h : i.mnemonic = .tax) : i = .tax := by
  cases i <;> first
    | (cases h; done)
    | rfl

theorem exec_of_tay {i : Instr} (h : i.mnemonic = .tay) : i = .tay := by
  cases i <;> first
    | (cases h; done)
    | rfl

theorem exec_of_txa {i : Instr} (h : i.mnemonic = .txa) : i = .txa := by
  cases i <;> first
    | (cases h; done)
    | rfl

theorem exec_of_tya {i : Instr} (h : i.mnemonic = .tya) : i = .tya := by
  cases i <;> first
    | (cases h; done)
    | rfl

theorem exec_of_tsx {i : Instr} (h : i.mnemonic = .tsx) : i = .tsx := by
  cases i <;> first
    | (cases h; done)
    | rfl

theorem exec_of_txs {i : Instr} (h : i.mnemonic = .txs) : i = .txs := by
  cases i <;> first
    | (cases h; done)
    | rfl

theorem exec_of_and {i : Instr} (h : i.mnemonic = .and) (s : State) :
    ∃ o, i.form = .data o ∧ exec i s = .next (andA o s) := by
  cases i <;> first
    | (cases h; done)
    | (exact ⟨_, rfl, rfl⟩)

theorem exec_of_eor {i : Instr} (h : i.mnemonic = .eor) (s : State) :
    ∃ o, i.form = .data o ∧ exec i s = .next (eorA o s) := by
  cases i <;> first
    | (cases h; done)
    | (exact ⟨_, rfl, rfl⟩)

theorem exec_of_ora {i : Instr} (h : i.mnemonic = .ora) (s : State) :
    ∃ o, i.form = .data o ∧ exec i s = .next (oraA o s) := by
  cases i <;> first
    | (cases h; done)
    | (exact ⟨_, rfl, rfl⟩)

theorem exec_of_cmp {i : Instr} (h : i.mnemonic = .cmp) (s : State) :
    ∃ o, i.form = .data o ∧ exec i s = .next (cmp o s) := by
  cases i <;> first
    | (cases h; done)
    | (exact ⟨_, rfl, rfl⟩)

theorem exec_of_cpx {i : Instr} (h : i.mnemonic = .cpx) (s : State) :
    ∃ o, i.form = .data o ∧ exec i s = .next (cpx o s) := by
  cases i <;> first
    | (cases h; done)
    | (exact ⟨_, rfl, rfl⟩)

theorem exec_of_cpy {i : Instr} (h : i.mnemonic = .cpy) (s : State) :
    ∃ o, i.form = .data o ∧ exec i s = .next (cpy o s) := by
  cases i <;> first
    | (cases h; done)
    | (exact ⟨_, rfl, rfl⟩)

theorem exec_of_bit {i : Instr} (h : i.mnemonic = .bit) (s : State) :
    ∃ m, i.form = .data (.mem m) ∧ exec i s = .next (bitA m s) := by
  cases i <;> first
    | (cases h; done)
    | (exact ⟨_, rfl, rfl⟩)

theorem exec_of_asl {i : Instr} (h : i.mnemonic = .asl) (s : State) :
    ∃ p : Place, i.form = .data p.operand ∧ exec i s = .next (asl p s) := by
  cases i <;> first
    | (cases h; done)
    | (first | exact ⟨.acc, rfl, rfl⟩ | exact ⟨.mem _, rfl, rfl⟩)

theorem exec_of_lsr {i : Instr} (h : i.mnemonic = .lsr) (s : State) :
    ∃ p : Place, i.form = .data p.operand ∧ exec i s = .next (lsr p s) := by
  cases i <;> first
    | (cases h; done)
    | (first | exact ⟨.acc, rfl, rfl⟩ | exact ⟨.mem _, rfl, rfl⟩)

theorem exec_of_rol {i : Instr} (h : i.mnemonic = .rol) (s : State) :
    ∃ p : Place, i.form = .data p.operand ∧ exec i s = .next (rol p s) := by
  cases i <;> first
    | (cases h; done)
    | (first | exact ⟨.acc, rfl, rfl⟩ | exact ⟨.mem _, rfl, rfl⟩)

theorem exec_of_ror {i : Instr} (h : i.mnemonic = .ror) (s : State) :
    ∃ p : Place, i.form = .data p.operand ∧ exec i s = .next (ror p s) := by
  cases i <;> first
    | (cases h; done)
    | (first | exact ⟨.acc, rfl, rfl⟩ | exact ⟨.mem _, rfl, rfl⟩)

theorem exec_of_clc {i : Instr} (h : i.mnemonic = .clc) : i = .clc := by
  cases i <;> first
    | (cases h; done)
    | rfl

theorem exec_of_cld {i : Instr} (h : i.mnemonic = .cld) : i = .cld := by
  cases i <;> first
    | (cases h; done)
    | rfl

theorem exec_of_cli {i : Instr} (h : i.mnemonic = .cli) : i = .cli := by
  cases i <;> first
    | (cases h; done)
    | rfl

theorem exec_of_clv {i : Instr} (h : i.mnemonic = .clv) : i = .clv := by
  cases i <;> first
    | (cases h; done)
    | rfl

theorem exec_of_sec {i : Instr} (h : i.mnemonic = .sec) : i = .sec := by
  cases i <;> first
    | (cases h; done)
    | rfl

theorem exec_of_sed {i : Instr} (h : i.mnemonic = .sed) : i = .sed := by
  cases i <;> first
    | (cases h; done)
    | rfl

theorem exec_of_sei {i : Instr} (h : i.mnemonic = .sei) : i = .sei := by
  cases i <;> first
    | (cases h; done)
    | rfl

theorem exec_of_nop {i : Instr} (h : i.mnemonic = .nop) : i = .nop := by
  cases i <;> first
    | (cases h; done)
    | rfl

theorem exec_of_pha {i : Instr} (h : i.mnemonic = .pha) : i = .pha := by
  cases i <;> first
    | (cases h; done)
    | rfl

theorem exec_of_php {i : Instr} (h : i.mnemonic = .php) : i = .php := by
  cases i <;> first
    | (cases h; done)
    | rfl

theorem exec_of_pla {i : Instr} (h : i.mnemonic = .pla) : i = .pla := by
  cases i <;> first
    | (cases h; done)
    | rfl

theorem exec_of_plp {i : Instr} (h : i.mnemonic = .plp) : i = .plp := by
  cases i <;> first
    | (cases h; done)
    | rfl

theorem exec_of_bcc {i : Instr} (h : i.mnemonic = .bcc) : ∃ d, i = .bcc d := by
  cases i <;> first
    | (cases h; done)
    | exact ⟨_, rfl⟩

theorem exec_of_bcs {i : Instr} (h : i.mnemonic = .bcs) : ∃ d, i = .bcs d := by
  cases i <;> first
    | (cases h; done)
    | exact ⟨_, rfl⟩

theorem exec_of_beq {i : Instr} (h : i.mnemonic = .beq) : ∃ d, i = .beq d := by
  cases i <;> first
    | (cases h; done)
    | exact ⟨_, rfl⟩

theorem exec_of_bmi {i : Instr} (h : i.mnemonic = .bmi) : ∃ d, i = .bmi d := by
  cases i <;> first
    | (cases h; done)
    | exact ⟨_, rfl⟩

theorem exec_of_bne {i : Instr} (h : i.mnemonic = .bne) : ∃ d, i = .bne d := by
  cases i <;> first
    | (cases h; done)
    | exact ⟨_, rfl⟩

theorem exec_of_bpl {i : Instr} (h : i.mnemonic = .bpl) : ∃ d, i = .bpl d := by
  cases i <;> first
    | (cases h; done)
    | exact ⟨_, rfl⟩

theorem exec_of_bvc {i : Instr} (h : i.mnemonic = .bvc) : ∃ d, i = .bvc d := by
  cases i <;> first
    | (cases h; done)
    | exact ⟨_, rfl⟩

theorem exec_of_bvs {i : Instr} (h : i.mnemonic = .bvs) : ∃ d, i = .bvs d := by
  cases i <;> first
    | (cases h; done)
    | exact ⟨_, rfl⟩

theorem exec_of_jmp {i : Instr} (h : i.mnemonic = .jmp) :
    (∃ w, i = .jmpAbs w) ∨ ∃ w, i = .jmpInd w := by
  cases i <;> first
    | (cases h; done)
    | exact .inl ⟨_, rfl⟩
    | exact .inr ⟨_, rfl⟩

theorem exec_of_jsr {i : Instr} (h : i.mnemonic = .jsr) : ∃ w, i = .jsr w := by
  cases i <;> first
    | (cases h; done)
    | exact ⟨_, rfl⟩

theorem exec_of_rts {i : Instr} (h : i.mnemonic = .rts) : i = .rts := by
  cases i <;> first
    | (cases h; done)
    | rfl

theorem exec_of_brk {i : Instr} (h : i.mnemonic = .brk) : i = .brk := by
  cases i <;> first
    | (cases h; done)
    | rfl

theorem exec_of_rti {i : Instr} (h : i.mnemonic = .rti) : i = .rti := by
  cases i <;> first
    | (cases h; done)
    | rfl

end Sys2Proof.Machine
end

