-- ==== Sys2Proof/Laws/Memory.lean ====
section
/-! SUPPORT. The laws of memory (20_memory R42): a read after a write, and that every memory operation keeps the canonical
form `Memory.wf`. -/

namespace Sys2Proof.Machine

theorem Memory.read_nil (addr : Nat) : Memory.read [] addr = Config.unlistedByte := rfl

theorem Memory.read_cons (k : Nat) (v : Byte) (m : Memory) (addr : Nat) :
    Memory.read ((k, v) :: m) addr = if k = addr then v else Memory.read m addr := rfl

theorem Memory.read_erase (m : Memory) (addr b : Nat) :
    (m.erase addr).read b = if b = addr then Config.unlistedByte else m.read b := by
  induction m with
  | nil => simp [Memory.erase, Memory.read]
  | cons cell m ih =>
    obtain ⟨k, v⟩ := cell
    unfold Memory.erase at ih ⊢
    by_cases hk : k = addr
    · subst hk
      rw [List.filter_cons_of_neg (by simp), ih, Memory.read_cons]
      split <;> simp_all [eq_comm]
    · rw [List.filter_cons_of_pos (by simpa using hk), Memory.read_cons, ih, Memory.read_cons]
      split <;> simp_all

theorem Memory.read_insert_ne (m : Memory) (addr : Nat) (v : Byte) {b : Nat} (hb : b ≠ addr) :
    (m.insert addr v).read b = m.read b := by
  induction m with
  | nil => simp [Memory.insert, Memory.read, hb.symm]
  | cons cell m ih =>
    obtain ⟨k, w⟩ := cell
    simp only [Memory.insert]
    split
    · simp [Memory.read, hb.symm]
    · simp [Memory.read, ih]

theorem Memory.read_insert_same (m : Memory) (addr : Nat) (v : Byte) (hfree : ∀ c ∈ m, c.1 ≠ addr) :
    (m.insert addr v).read addr = v := by
  induction m with
  | nil => simp [Memory.insert, Memory.read]
  | cons cell m ih =>
    obtain ⟨k, w⟩ := cell
    have hk : k ≠ addr := hfree (k, w) (by simp)
    simp only [Memory.insert]
    split
    · simp [Memory.read]
    · simpa [Memory.read, hk] using ih (fun c hc => hfree c (by simp [hc]))

theorem Memory.erase_free (m : Memory) (addr : Nat) : ∀ c ∈ m.erase addr, c.1 ≠ addr := by
  intro c hc
  simpa using (List.mem_filter.1 hc).2

/-- MemRead after MemWrite (20_memory R42): the byte last written to the cell, and every other cell as before. -/
theorem Memory.read_write (m : Memory) (addr : Nat) (v : Byte) (b : Nat) :
    (m.write addr v).read b = if b = addr then v else m.read b := by
  unfold Memory.write
  split
  · next h => rw [Memory.read_erase, h]
  · by_cases hb : b = addr
    · rw [if_pos hb, hb]
      exact Memory.read_insert_same _ addr v (Memory.erase_free m addr)
    · rw [Memory.read_insert_ne _ _ _ hb, Memory.read_erase, if_neg hb, if_neg hb]

/-! ### The canonical form -/

theorem Memory.wfFrom_cons (lo k : Nat) (v : Byte) (m : Memory) :
    Memory.wfFrom lo ((k, v) :: m) = true ↔
      lo ≤ k ∧ k < 65536 ∧ v ≠ Config.unlistedByte ∧ m.wfFrom (k + 1) = true := by
  simp [Memory.wfFrom, and_assoc]

theorem Memory.wfFrom_mono {lo lo' : Nat} (h : lo' ≤ lo) {m : Memory} (hm : m.wfFrom lo = true) :
    m.wfFrom lo' = true := by
  cases m with
  | nil => rfl
  | cons cell m =>
    obtain ⟨k, v⟩ := cell
    rw [Memory.wfFrom_cons] at hm ⊢
    exact ⟨by omega, hm.2⟩

theorem Memory.wfFrom_erase {lo : Nat} {m : Memory} (hm : m.wfFrom lo = true) (addr : Nat) :
    (m.erase addr).wfFrom lo = true := by
  induction m generalizing lo with
  | nil => rfl
  | cons cell m ih =>
    obtain ⟨k, v⟩ := cell
    obtain ⟨h1, h2, h3, h4⟩ := (Memory.wfFrom_cons ..).1 hm
    unfold Memory.erase at ih ⊢
    by_cases hk : k = addr
    · rw [List.filter_cons_of_neg (by simp [hk])]
      exact Memory.wfFrom_mono (by omega) (ih h4)
    · rw [List.filter_cons_of_pos (by simpa using hk)]
      exact (Memory.wfFrom_cons ..).2 ⟨h1, h2, h3, ih h4⟩

theorem Memory.wfFrom_insert {lo : Nat} {m : Memory} (hm : m.wfFrom lo = true) {addr : Nat} {v : Byte}
    (hlo : lo ≤ addr) (ha : addr < 65536) (hv : v ≠ Config.unlistedByte)
    (hfree : ∀ c ∈ m, c.1 ≠ addr) : (m.insert addr v).wfFrom lo = true := by
  induction m generalizing lo with
  | nil => exact (Memory.wfFrom_cons ..).2 ⟨hlo, ha, hv, rfl⟩
  | cons cell m ih =>
    obtain ⟨k, w⟩ := cell
    obtain ⟨h1, h2, h3, h4⟩ := (Memory.wfFrom_cons ..).1 hm
    have hk : k ≠ addr := hfree (k, w) (by simp)
    simp only [Memory.insert]
    split
    · next hlt => exact (Memory.wfFrom_cons ..).2 ⟨hlo, ha, hv, (Memory.wfFrom_cons ..).2 ⟨hlt, h2, h3, h4⟩⟩
    · exact (Memory.wfFrom_cons ..).2 ⟨h1, h2, h3, ih h4 (by omega) (fun c hc => hfree c (by simp [hc]))⟩

/-- MemWrite keeps the canonical form. -/
theorem Memory.wf_write {m : Memory} (hm : m.wf = true) {addr : Nat} (ha : addr < 65536) (v : Byte) :
    (m.write addr v).wf = true := by
  unfold Memory.write Memory.wf at *
  split
  · exact Memory.wfFrom_erase hm addr
  · next hv => exact Memory.wfFrom_insert (Memory.wfFrom_erase hm addr) (Nat.zero_le _) ha hv (Memory.erase_free m addr)

/-- Loading an image keeps the canonical form. -/
theorem Memory.wf_load {m : Memory} (hm : m.wf = true) (image : List (Word × Byte)) : (m.load image).wf = true := by
  induction image generalizing m with
  | nil => exact hm
  | cons cell image ih =>
    obtain ⟨addr, v⟩ := cell
    exact ih (Memory.wf_write hm addr.isLt v)

/-- The memory of the reset state is canonical. -/
theorem Memory.wf_reset : State.reset.mem.wf = true := rfl

end Sys2Proof.Machine
end

