-- ==== Sys2Proof/Laws/State.lean ====
section
/-! SUPPORT. One lemma per field per update of State and of Flags, each true by rfl: no later proof unfolds a record update. -/

namespace Sys2Proof.Machine

@[simp] theorem State.setA_a (s : State) (v : Byte) : (s.setA v).a = v := rfl
@[simp] theorem State.setA_x (s : State) (v : Byte) : (s.setA v).x = s.x := rfl
@[simp] theorem State.setA_y (s : State) (v : Byte) : (s.setA v).y = s.y := rfl
@[simp] theorem State.setA_sp (s : State) (v : Byte) : (s.setA v).sp = s.sp := rfl
@[simp] theorem State.setA_pc (s : State) (v : Byte) : (s.setA v).pc = s.pc := rfl
@[simp] theorem State.setA_flags (s : State) (v : Byte) : (s.setA v).flags = s.flags := rfl
@[simp] theorem State.setA_mem (s : State) (v : Byte) : (s.setA v).mem = s.mem := rfl
@[simp] theorem State.setA_fault (s : State) (v : Byte) : (s.setA v).fault = s.fault := rfl
@[simp] theorem State.setA_haltPc (s : State) (v : Byte) : (s.setA v).haltPc = s.haltPc := rfl

@[simp] theorem State.setX_a (s : State) (v : Byte) : (s.setX v).a = s.a := rfl
@[simp] theorem State.setX_x (s : State) (v : Byte) : (s.setX v).x = v := rfl
@[simp] theorem State.setX_y (s : State) (v : Byte) : (s.setX v).y = s.y := rfl
@[simp] theorem State.setX_sp (s : State) (v : Byte) : (s.setX v).sp = s.sp := rfl
@[simp] theorem State.setX_pc (s : State) (v : Byte) : (s.setX v).pc = s.pc := rfl
@[simp] theorem State.setX_flags (s : State) (v : Byte) : (s.setX v).flags = s.flags := rfl
@[simp] theorem State.setX_mem (s : State) (v : Byte) : (s.setX v).mem = s.mem := rfl
@[simp] theorem State.setX_fault (s : State) (v : Byte) : (s.setX v).fault = s.fault := rfl
@[simp] theorem State.setX_haltPc (s : State) (v : Byte) : (s.setX v).haltPc = s.haltPc := rfl

@[simp] theorem State.setY_a (s : State) (v : Byte) : (s.setY v).a = s.a := rfl
@[simp] theorem State.setY_x (s : State) (v : Byte) : (s.setY v).x = s.x := rfl
@[simp] theorem State.setY_y (s : State) (v : Byte) : (s.setY v).y = v := rfl
@[simp] theorem State.setY_sp (s : State) (v : Byte) : (s.setY v).sp = s.sp := rfl
@[simp] theorem State.setY_pc (s : State) (v : Byte) : (s.setY v).pc = s.pc := rfl
@[simp] theorem State.setY_flags (s : State) (v : Byte) : (s.setY v).flags = s.flags := rfl
@[simp] theorem State.setY_mem (s : State) (v : Byte) : (s.setY v).mem = s.mem := rfl
@[simp] theorem State.setY_fault (s : State) (v : Byte) : (s.setY v).fault = s.fault := rfl
@[simp] theorem State.setY_haltPc (s : State) (v : Byte) : (s.setY v).haltPc = s.haltPc := rfl

@[simp] theorem State.setSp_a (s : State) (v : Byte) : (s.setSp v).a = s.a := rfl
@[simp] theorem State.setSp_x (s : State) (v : Byte) : (s.setSp v).x = s.x := rfl
@[simp] theorem State.setSp_y (s : State) (v : Byte) : (s.setSp v).y = s.y := rfl
@[simp] theorem State.setSp_sp (s : State) (v : Byte) : (s.setSp v).sp = v := rfl
@[simp] theorem State.setSp_pc (s : State) (v : Byte) : (s.setSp v).pc = s.pc := rfl
@[simp] theorem State.setSp_flags (s : State) (v : Byte) : (s.setSp v).flags = s.flags := rfl
@[simp] theorem State.setSp_mem (s : State) (v : Byte) : (s.setSp v).mem = s.mem := rfl
@[simp] theorem State.setSp_fault (s : State) (v : Byte) : (s.setSp v).fault = s.fault := rfl
@[simp] theorem State.setSp_haltPc (s : State) (v : Byte) : (s.setSp v).haltPc = s.haltPc := rfl

@[simp] theorem State.setPc_a (s : State) (w : Word) : (s.setPc w).a = s.a := rfl
@[simp] theorem State.setPc_x (s : State) (w : Word) : (s.setPc w).x = s.x := rfl
@[simp] theorem State.setPc_y (s : State) (w : Word) : (s.setPc w).y = s.y := rfl
@[simp] theorem State.setPc_sp (s : State) (w : Word) : (s.setPc w).sp = s.sp := rfl
@[simp] theorem State.setPc_pc (s : State) (w : Word) : (s.setPc w).pc = w := rfl
@[simp] theorem State.setPc_flags (s : State) (w : Word) : (s.setPc w).flags = s.flags := rfl
@[simp] theorem State.setPc_mem (s : State) (w : Word) : (s.setPc w).mem = s.mem := rfl
@[simp] theorem State.setPc_fault (s : State) (w : Word) : (s.setPc w).fault = s.fault := rfl
@[simp] theorem State.setPc_haltPc (s : State) (w : Word) : (s.setPc w).haltPc = s.haltPc := rfl

@[simp] theorem State.setFlags_a (s : State) (p : Flags) : (s.setFlags p).a = s.a := rfl
@[simp] theorem State.setFlags_x (s : State) (p : Flags) : (s.setFlags p).x = s.x := rfl
@[simp] theorem State.setFlags_y (s : State) (p : Flags) : (s.setFlags p).y = s.y := rfl
@[simp] theorem State.setFlags_sp (s : State) (p : Flags) : (s.setFlags p).sp = s.sp := rfl
@[simp] theorem State.setFlags_pc (s : State) (p : Flags) : (s.setFlags p).pc = s.pc := rfl
@[simp] theorem State.setFlags_flags (s : State) (p : Flags) : (s.setFlags p).flags = p := rfl
@[simp] theorem State.setFlags_mem (s : State) (p : Flags) : (s.setFlags p).mem = s.mem := rfl
@[simp] theorem State.setFlags_fault (s : State) (p : Flags) : (s.setFlags p).fault = s.fault := rfl
@[simp] theorem State.setFlags_haltPc (s : State) (p : Flags) : (s.setFlags p).haltPc = s.haltPc := rfl

@[simp] theorem State.setMem_a (s : State) (m : Memory) : (s.setMem m).a = s.a := rfl
@[simp] theorem State.setMem_x (s : State) (m : Memory) : (s.setMem m).x = s.x := rfl
@[simp] theorem State.setMem_y (s : State) (m : Memory) : (s.setMem m).y = s.y := rfl
@[simp] theorem State.setMem_sp (s : State) (m : Memory) : (s.setMem m).sp = s.sp := rfl
@[simp] theorem State.setMem_pc (s : State) (m : Memory) : (s.setMem m).pc = s.pc := rfl
@[simp] theorem State.setMem_flags (s : State) (m : Memory) : (s.setMem m).flags = s.flags := rfl
@[simp] theorem State.setMem_mem (s : State) (m : Memory) : (s.setMem m).mem = m := rfl
@[simp] theorem State.setMem_fault (s : State) (m : Memory) : (s.setMem m).fault = s.fault := rfl
@[simp] theorem State.setMem_haltPc (s : State) (m : Memory) : (s.setMem m).haltPc = s.haltPc := rfl

@[simp] theorem State.setFault_a (s : State) (e : Cause) : (s.setFault e).a = s.a := rfl
@[simp] theorem State.setFault_x (s : State) (e : Cause) : (s.setFault e).x = s.x := rfl
@[simp] theorem State.setFault_y (s : State) (e : Cause) : (s.setFault e).y = s.y := rfl
@[simp] theorem State.setFault_sp (s : State) (e : Cause) : (s.setFault e).sp = s.sp := rfl
@[simp] theorem State.setFault_pc (s : State) (e : Cause) : (s.setFault e).pc = s.pc := rfl
@[simp] theorem State.setFault_flags (s : State) (e : Cause) : (s.setFault e).flags = s.flags := rfl
@[simp] theorem State.setFault_mem (s : State) (e : Cause) : (s.setFault e).mem = s.mem := rfl
@[simp] theorem State.setFault_fault (s : State) (e : Cause) : (s.setFault e).fault = some e := rfl
@[simp] theorem State.setFault_haltPc (s : State) (e : Cause) : (s.setFault e).haltPc = s.haltPc := rfl

@[simp] theorem State.setFlag_a (s : State) (f : Flag) (b : Bool) : (s.setFlag f b).a = s.a := rfl
@[simp] theorem State.setFlag_x (s : State) (f : Flag) (b : Bool) : (s.setFlag f b).x = s.x := rfl
@[simp] theorem State.setFlag_y (s : State) (f : Flag) (b : Bool) : (s.setFlag f b).y = s.y := rfl
@[simp] theorem State.setFlag_sp (s : State) (f : Flag) (b : Bool) : (s.setFlag f b).sp = s.sp := rfl
@[simp] theorem State.setFlag_pc (s : State) (f : Flag) (b : Bool) : (s.setFlag f b).pc = s.pc := rfl
@[simp] theorem State.setFlag_flags (s : State) (f : Flag) (b : Bool) : (s.setFlag f b).flags = s.flags.set f b := rfl
@[simp] theorem State.setFlag_mem (s : State) (f : Flag) (b : Bool) : (s.setFlag f b).mem = s.mem := rfl
@[simp] theorem State.setFlag_fault (s : State) (f : Flag) (b : Bool) : (s.setFlag f b).fault = s.fault := rfl
@[simp] theorem State.setFlag_haltPc (s : State) (f : Flag) (b : Bool) : (s.setFlag f b).haltPc = s.haltPc := rfl

@[simp] theorem State.setNZ_a (s : State) (r : Byte) : (s.setNZ r).a = s.a := rfl
@[simp] theorem State.setNZ_x (s : State) (r : Byte) : (s.setNZ r).x = s.x := rfl
@[simp] theorem State.setNZ_y (s : State) (r : Byte) : (s.setNZ r).y = s.y := rfl
@[simp] theorem State.setNZ_sp (s : State) (r : Byte) : (s.setNZ r).sp = s.sp := rfl
@[simp] theorem State.setNZ_pc (s : State) (r : Byte) : (s.setNZ r).pc = s.pc := rfl
@[simp] theorem State.setNZ_flags (s : State) (r : Byte) : (s.setNZ r).flags = (s.flags.set .z (r == 0x00)).set .n (r.getLsbD 7) := rfl
@[simp] theorem State.setNZ_mem (s : State) (r : Byte) : (s.setNZ r).mem = s.mem := rfl
@[simp] theorem State.setNZ_fault (s : State) (r : Byte) : (s.setNZ r).fault = s.fault := rfl
@[simp] theorem State.setNZ_haltPc (s : State) (r : Byte) : (s.setNZ r).haltPc = s.haltPc := rfl

@[simp] theorem Flags.set_n_n (p : Flags) (b : Bool) : (p.set .n b).n = b := rfl
@[simp] theorem Flags.set_n_v (p : Flags) (b : Bool) : (p.set .n b).v = p.v := rfl
@[simp] theorem Flags.set_n_d (p : Flags) (b : Bool) : (p.set .n b).d = p.d := rfl
@[simp] theorem Flags.set_n_i (p : Flags) (b : Bool) : (p.set .n b).i = p.i := rfl
@[simp] theorem Flags.set_n_z (p : Flags) (b : Bool) : (p.set .n b).z = p.z := rfl
@[simp] theorem Flags.set_n_c (p : Flags) (b : Bool) : (p.set .n b).c = p.c := rfl
@[simp] theorem Flags.set_v_n (p : Flags) (b : Bool) : (p.set .v b).n = p.n := rfl
@[simp] theorem Flags.set_v_v (p : Flags) (b : Bool) : (p.set .v b).v = b := rfl
@[simp] theorem Flags.set_v_d (p : Flags) (b : Bool) : (p.set .v b).d = p.d := rfl
@[simp] theorem Flags.set_v_i (p : Flags) (b : Bool) : (p.set .v b).i = p.i := rfl
@[simp] theorem Flags.set_v_z (p : Flags) (b : Bool) : (p.set .v b).z = p.z := rfl
@[simp] theorem Flags.set_v_c (p : Flags) (b : Bool) : (p.set .v b).c = p.c := rfl
@[simp] theorem Flags.set_d_n (p : Flags) (b : Bool) : (p.set .d b).n = p.n := rfl
@[simp] theorem Flags.set_d_v (p : Flags) (b : Bool) : (p.set .d b).v = p.v := rfl
@[simp] theorem Flags.set_d_d (p : Flags) (b : Bool) : (p.set .d b).d = b := rfl
@[simp] theorem Flags.set_d_i (p : Flags) (b : Bool) : (p.set .d b).i = p.i := rfl
@[simp] theorem Flags.set_d_z (p : Flags) (b : Bool) : (p.set .d b).z = p.z := rfl
@[simp] theorem Flags.set_d_c (p : Flags) (b : Bool) : (p.set .d b).c = p.c := rfl
@[simp] theorem Flags.set_i_n (p : Flags) (b : Bool) : (p.set .i b).n = p.n := rfl
@[simp] theorem Flags.set_i_v (p : Flags) (b : Bool) : (p.set .i b).v = p.v := rfl
@[simp] theorem Flags.set_i_d (p : Flags) (b : Bool) : (p.set .i b).d = p.d := rfl
@[simp] theorem Flags.set_i_i (p : Flags) (b : Bool) : (p.set .i b).i = b := rfl
@[simp] theorem Flags.set_i_z (p : Flags) (b : Bool) : (p.set .i b).z = p.z := rfl
@[simp] theorem Flags.set_i_c (p : Flags) (b : Bool) : (p.set .i b).c = p.c := rfl
@[simp] theorem Flags.set_z_n (p : Flags) (b : Bool) : (p.set .z b).n = p.n := rfl
@[simp] theorem Flags.set_z_v (p : Flags) (b : Bool) : (p.set .z b).v = p.v := rfl
@[simp] theorem Flags.set_z_d (p : Flags) (b : Bool) : (p.set .z b).d = p.d := rfl
@[simp] theorem Flags.set_z_i (p : Flags) (b : Bool) : (p.set .z b).i = p.i := rfl
@[simp] theorem Flags.set_z_z (p : Flags) (b : Bool) : (p.set .z b).z = b := rfl
@[simp] theorem Flags.set_z_c (p : Flags) (b : Bool) : (p.set .z b).c = p.c := rfl
@[simp] theorem Flags.set_c_n (p : Flags) (b : Bool) : (p.set .c b).n = p.n := rfl
@[simp] theorem Flags.set_c_v (p : Flags) (b : Bool) : (p.set .c b).v = p.v := rfl
@[simp] theorem Flags.set_c_d (p : Flags) (b : Bool) : (p.set .c b).d = p.d := rfl
@[simp] theorem Flags.set_c_i (p : Flags) (b : Bool) : (p.set .c b).i = p.i := rfl
@[simp] theorem Flags.set_c_z (p : Flags) (b : Bool) : (p.set .c b).z = p.z := rfl
@[simp] theorem Flags.set_c_c (p : Flags) (b : Bool) : (p.set .c b).c = b := rfl

/-- `getFlag` after `setFlag` (10_state R28): exactly the requested flag changes. -/
theorem Flags.get_set (p : Flags) (f g : Flag) (b : Bool) : (p.set f b).get g = if g = f then b else p.get g := by
  cases f <;> cases g <;> rfl

end Sys2Proof.Machine
end

