-- ==== Sys2Proof/Laws/Ops.lean ====
section
/-! SUPPORT. What each shared operation of Machine/Ops.lean and Machine/Operands.lean does: its fields, the memory it leaves,
and that it keeps the canonical form. Later proofs cite these and unfold no operation. -/

namespace Sys2Proof.Machine

/-! ### MemRead and MemWrite -/

@[simp] theorem State.read_setA (s : State) (v : Byte) (b : Word) : (s.setA v).read b = s.read b := rfl
@[simp] theorem State.read_setX (s : State) (v : Byte) (b : Word) : (s.setX v).read b = s.read b := rfl
@[simp] theorem State.read_setY (s : State) (v : Byte) (b : Word) : (s.setY v).read b = s.read b := rfl
@[simp] theorem State.read_setSp (s : State) (v : Byte) (b : Word) : (s.setSp v).read b = s.read b := rfl
@[simp] theorem State.read_setPc (s : State) (w : Word) (b : Word) : (s.setPc w).read b = s.read b := rfl
@[simp] theorem State.read_setFlags (s : State) (p : Flags) (b : Word) : (s.setFlags p).read b = s.read b := rfl
@[simp] theorem State.read_setFault (s : State) (e : Cause) (b : Word) : (s.setFault e).read b = s.read b := rfl
@[simp] theorem State.read_setNZ (s : State) (r : Byte) (b : Word) : (s.setNZ r).read b = s.read b := rfl
@[simp] theorem State.read_setFlag (s : State) (f : Flag) (v : Bool) (b : Word) : (s.setFlag f v).read b = s.read b := rfl

@[simp] theorem State.write_a (s : State) (addr : Word) (v : Byte) : (s.write addr v).a = s.a := rfl
@[simp] theorem State.write_x (s : State) (addr : Word) (v : Byte) : (s.write addr v).x = s.x := rfl
@[simp] theorem State.write_y (s : State) (addr : Word) (v : Byte) : (s.write addr v).y = s.y := rfl
@[simp] theorem State.write_sp (s : State) (addr : Word) (v : Byte) : (s.write addr v).sp = s.sp := rfl
@[simp] theorem State.write_pc (s : State) (addr : Word) (v : Byte) : (s.write addr v).pc = s.pc := rfl
@[simp] theorem State.write_flags (s : State) (addr : Word) (v : Byte) : (s.write addr v).flags = s.flags := rfl
@[simp] theorem State.write_fault (s : State) (addr : Word) (v : Byte) : (s.write addr v).fault = s.fault := rfl
@[simp] theorem State.write_haltPc (s : State) (addr : Word) (v : Byte) : (s.write addr v).haltPc = s.haltPc := rfl

@[simp] theorem State.push_a (s : State) (v : Byte) : (s.push v).a = s.a := rfl
@[simp] theorem State.push_x (s : State) (v : Byte) : (s.push v).x = s.x := rfl
@[simp] theorem State.push_y (s : State) (v : Byte) : (s.push v).y = s.y := rfl
@[simp] theorem State.push_sp (s : State) (v : Byte) : (s.push v).sp = s.sp - 1 := rfl
@[simp] theorem State.push_pc (s : State) (v : Byte) : (s.push v).pc = s.pc := rfl
@[simp] theorem State.push_flags (s : State) (v : Byte) : (s.push v).flags = s.flags := rfl
@[simp] theorem State.push_fault (s : State) (v : Byte) : (s.push v).fault = s.fault := rfl
@[simp] theorem State.push_haltPc (s : State) (v : Byte) : (s.push v).haltPc = s.haltPc := rfl

@[simp] theorem State.pulled_a (s : State) : s.pulled.a = s.a := rfl
@[simp] theorem State.pulled_x (s : State) : s.pulled.x = s.x := rfl
@[simp] theorem State.pulled_y (s : State) : s.pulled.y = s.y := rfl
@[simp] theorem State.pulled_sp (s : State) : s.pulled.sp = s.sp + 1 := rfl
@[simp] theorem State.pulled_pc (s : State) : s.pulled.pc = s.pc := rfl
@[simp] theorem State.pulled_flags (s : State) : s.pulled.flags = s.flags := rfl
@[simp] theorem State.pulled_fault (s : State) : s.pulled.fault = s.fault := rfl
@[simp] theorem State.pulled_haltPc (s : State) : s.pulled.haltPc = s.haltPc := rfl

@[simp] theorem State.pushWord_a (s : State) (w : Word) : (s.pushWord w).a = s.a := rfl
@[simp] theorem State.pushWord_x (s : State) (w : Word) : (s.pushWord w).x = s.x := rfl
@[simp] theorem State.pushWord_y (s : State) (w : Word) : (s.pushWord w).y = s.y := rfl
@[simp] theorem State.pushWord_sp (s : State) (w : Word) : (s.pushWord w).sp = s.sp - 1 - 1 := rfl
@[simp] theorem State.pushWord_pc (s : State) (w : Word) : (s.pushWord w).pc = s.pc := rfl
@[simp] theorem State.pushWord_flags (s : State) (w : Word) : (s.pushWord w).flags = s.flags := rfl
@[simp] theorem State.pushWord_fault (s : State) (w : Word) : (s.pushWord w).fault = s.fault := rfl
@[simp] theorem State.pushWord_haltPc (s : State) (w : Word) : (s.pushWord w).haltPc = s.haltPc := rfl

@[simp] theorem State.pulledWord_a (s : State) : s.pulledWord.a = s.a := rfl
@[simp] theorem State.pulledWord_x (s : State) : s.pulledWord.x = s.x := rfl
@[simp] theorem State.pulledWord_y (s : State) : s.pulledWord.y = s.y := rfl
@[simp] theorem State.pulledWord_sp (s : State) : s.pulledWord.sp = s.sp + 1 + 1 := rfl
@[simp] theorem State.pulledWord_pc (s : State) : s.pulledWord.pc = s.pc := rfl
@[simp] theorem State.pulledWord_flags (s : State) : s.pulledWord.flags = s.flags := rfl
@[simp] theorem State.pulledWord_fault (s : State) : s.pulledWord.fault = s.fault := rfl
@[simp] theorem State.pulledWord_haltPc (s : State) : s.pulledWord.haltPc = s.haltPc := rfl

@[simp] theorem State.pulled_mem (s : State) : s.pulled.mem = s.mem := rfl
@[simp] theorem State.pulledWord_mem (s : State) : s.pulledWord.mem = s.mem := rfl
@[simp] theorem State.read_pulled (s : State) (b : Word) : s.pulled.read b = s.read b := rfl
@[simp] theorem State.read_pulledWord (s : State) (b : Word) : s.pulledWord.read b = s.read b := rfl

/-- MemRead after MemWrite (00_scope R12; 20_memory R42). -/
theorem State.read_write (s : State) (addr : Word) (v : Byte) (b : Word) :
    (s.write addr v).read b = if b = addr then v else s.read b := by
  simp only [State.read, State.write, State.setMem_mem, Memory.read_write, BitVec.toNat_inj]

@[simp] theorem State.read_write_same (s : State) (addr : Word) (v : Byte) : (s.write addr v).read addr = v := by
  simp [State.read_write]

theorem State.read_write_ne (s : State) (addr : Word) (v : Byte) {b : Word} (h : b ≠ addr) :
    (s.write addr v).read b = s.read b := by
  simp [State.read_write, h]

theorem State.wf_write {s : State} (h : s.mem.wf = true) (addr : Word) (v : Byte) : (s.write addr v).mem.wf = true :=
  Memory.wf_write h addr.isLt v

/-! ### The stack -/

/-- The stack cell lies in page 1 (47_stack R170). -/
theorem stackAddr_toNat (sp : Byte) : (stackAddr sp).toNat = 256 + sp.toNat := by
  have := sp.isLt
  simp only [stackAddr, zext16, BitVec.toNat_add, BitVec.toNat_setWidth, show (0x0100 : Word).toNat = 256 from rfl]
  omega

theorem stackAddr_inj {p q : Byte} : stackAddr p = stackAddr q ↔ p = q := by
  refine ⟨fun h => ?_, fun h => h ▸ rfl⟩
  have h' := congrArg BitVec.toNat h
  rw [stackAddr_toNat, stackAddr_toNat] at h'
  exact BitVec.eq_of_toNat_eq (by omega)

/-- What a push leaves in memory: the byte at the cell SP named. -/
theorem State.read_push (s : State) (v : Byte) (b : Word) :
    (s.push v).read b = if b = stackAddr s.sp then v else s.read b := State.read_write s (stackAddr s.sp) v b

theorem State.wf_push {s : State} (h : s.mem.wf = true) (v : Byte) : (s.push v).mem.wf = true := State.wf_write h _ v

/-- A pull after a push returns the byte pushed. -/
@[simp] theorem State.pullByte_push (s : State) (v : Byte) : (s.push v).pullByte = v := by
  rw [State.pullByte, State.push_sp, BitVec.sub_add_cancel, State.read_push, if_pos rfl]

theorem State.wf_pushWord {s : State} (h : s.mem.wf = true) (w : Word) : (s.pushWord w).mem.wf = true :=
  State.wf_push (State.wf_push h _) _

/-- What the push of a word leaves in memory: the low byte at the second cell, the high byte at the first. -/
theorem State.read_pushWord (s : State) (w : Word) (b : Word) :
    (s.pushWord w).read b = if b = stackAddr (s.sp - 1) then lowByte w else if b = stackAddr s.sp then highByte w
      else s.read b := by
  rw [State.pushWord, State.read_push, State.read_push, State.push_sp]

/-! ### Trap entry and return -/

@[simp] theorem State.enterTrap_a (s : State) (ret : Word) : (s.enterTrap ret).a = s.a := by simp only [State.enterTrap, State.setPc_a, State.setFlag_a, State.push_a, State.pushWord_a]
@[simp] theorem State.enterTrap_x (s : State) (ret : Word) : (s.enterTrap ret).x = s.x := by simp only [State.enterTrap, State.setPc_x, State.setFlag_x, State.push_x, State.pushWord_x]
@[simp] theorem State.enterTrap_y (s : State) (ret : Word) : (s.enterTrap ret).y = s.y := by simp only [State.enterTrap, State.setPc_y, State.setFlag_y, State.push_y, State.pushWord_y]
@[simp] theorem State.enterTrap_sp (s : State) (ret : Word) : (s.enterTrap ret).sp = s.sp - 1 - 1 - 1 := by simp only [State.enterTrap, State.setPc_sp, State.setFlag_sp, State.push_sp, State.pushWord_sp]
@[simp] theorem State.enterTrap_flags (s : State) (ret : Word) : (s.enterTrap ret).flags = s.flags.set .i true := by simp only [State.enterTrap, State.setPc_flags, State.setFlag_flags, State.push_flags, State.pushWord_flags]
@[simp] theorem State.enterTrap_fault (s : State) (ret : Word) : (s.enterTrap ret).fault = s.fault := by simp only [State.enterTrap, State.setPc_fault, State.setFlag_fault, State.push_fault, State.pushWord_fault]
@[simp] theorem State.enterTrap_haltPc (s : State) (ret : Word) : (s.enterTrap ret).haltPc = s.haltPc := by simp only [State.enterTrap, State.setPc_haltPc, State.setFlag_haltPc, State.push_haltPc, State.pushWord_haltPc]

@[simp] theorem State.returnFromTrap_a (s : State) : s.returnFromTrap.a = s.a := by simp only [State.returnFromTrap, State.setPc_a, State.pulledWord_a, State.setFlags_a, State.pulled_a]
@[simp] theorem State.returnFromTrap_x (s : State) : s.returnFromTrap.x = s.x := by simp only [State.returnFromTrap, State.setPc_x, State.pulledWord_x, State.setFlags_x, State.pulled_x]
@[simp] theorem State.returnFromTrap_y (s : State) : s.returnFromTrap.y = s.y := by simp only [State.returnFromTrap, State.setPc_y, State.pulledWord_y, State.setFlags_y, State.pulled_y]
@[simp] theorem State.returnFromTrap_sp (s : State) : s.returnFromTrap.sp = s.sp + 1 + 1 + 1 := by simp only [State.returnFromTrap, State.setPc_sp, State.pulledWord_sp, State.setFlags_sp, State.pulled_sp]
@[simp] theorem State.returnFromTrap_flags (s : State) : s.returnFromTrap.flags = Flags.ofByte s.pullByte := by simp only [State.returnFromTrap, State.setPc_flags, State.pulledWord_flags, State.setFlags_flags]
@[simp] theorem State.returnFromTrap_mem (s : State) : s.returnFromTrap.mem = s.mem := by simp only [State.returnFromTrap, State.setPc_mem, State.pulledWord_mem, State.setFlags_mem, State.pulled_mem]
@[simp] theorem State.returnFromTrap_fault (s : State) : s.returnFromTrap.fault = s.fault := by simp only [State.returnFromTrap, State.setPc_fault, State.pulledWord_fault, State.setFlags_fault, State.pulled_fault]
@[simp] theorem State.returnFromTrap_haltPc (s : State) : s.returnFromTrap.haltPc = s.haltPc := by simp only [State.returnFromTrap, State.setPc_haltPc, State.pulledWord_haltPc, State.setFlags_haltPc, State.pulled_haltPc]

/-- What trap entry leaves in memory: the return address and the status byte, downward from SP. -/
theorem State.read_enterTrap (s : State) (ret : Word) (b : Word) :
    (s.enterTrap ret).read b = if b = stackAddr (s.sp - 1 - 1) then s.flags.pushed
      else if b = stackAddr (s.sp - 1) then lowByte ret else if b = stackAddr s.sp then highByte ret else s.read b := by
  show ((s.pushWord ret).push s.flags.pushed).read b = _
  rw [State.read_push, State.read_pushWord, State.pushWord_sp]

theorem State.wf_enterTrap {s : State} (h : s.mem.wf = true) (ret : Word) : (s.enterTrap ret).mem.wf = true :=
  State.wf_push (State.wf_pushWord h ret) _

/-! ### The resolver -/

/-- The effective address reads X, Y and memory only, so it is the same after any other register changes. -/
theorem ea_congr (m : MemMode) {s t : State} (hx : t.x = s.x) (hy : t.y = s.y) (hm : t.mem = s.mem) : ea m t = ea m s := by
  cases m <;> simp [ea, State.zpRead16, State.read, hx, hy, hm]

/-- What write-back does: A in accumulator mode, one cell of memory in a memory mode (40_dispatch R98). -/
theorem writeBack_cases (p : Place) (v : Byte) (s : State) :
    (p = .acc ∧ writeBack p v s = s.setA v) ∨ ∃ m, p = .mem m ∧ writeBack p v s = s.write (ea m s) v := by
  cases p with
  | acc => exact .inl ⟨rfl, rfl⟩
  | mem m => exact .inr ⟨m, rfl, rfl⟩

theorem wf_writeBack {s : State} (h : s.mem.wf = true) (p : Place) (v : Byte) : (writeBack p v s).mem.wf = true := by
  cases p with
  | acc => exact h
  | mem m => exact State.wf_write h _ v

end Sys2Proof.Machine
end

