-- ==== Sys2Proof/Laws/Meanings.lean ====
section
/-! SUPPORT. One equation per shared operation of the meaning files: the state it answers, as the fields it writes. -/

namespace Sys2Proof.Machine

/-- `setNZ` (10_state R27) as the two flags it writes. -/
theorem State.setNZ_eq (s : State) (r : Byte) :
    s.setNZ r = { s with flags := { s.flags with z := r == 0x00, n := r.getLsbD 7 } } := rfl

theorem lda_eq (o : Operand) (s : State) :
    lda o s = { s with
      a := readOperand o s
      flags := { s.flags with z := readOperand o s == 0x00, n := (readOperand o s).getLsbD 7 } } := rfl

theorem ldx_eq (o : Operand) (s : State) :
    ldx o s = { s with
      x := readOperand o s
      flags := { s.flags with z := readOperand o s == 0x00, n := (readOperand o s).getLsbD 7 } } := rfl

theorem ldy_eq (o : Operand) (s : State) :
    ldy o s = { s with
      y := readOperand o s
      flags := { s.flags with z := readOperand o s == 0x00, n := (readOperand o s).getLsbD 7 } } := rfl

/-- What ADC and SBC share: A, N, Z, C and V are written. -/
theorem State.takeAlu_eq (s : State) (r : AluResult) :
    s.takeAlu r = { s with
      a := r.value
      flags := { s.flags with
        n := r.value.getLsbD 7, v := r.overflow, z := r.value == 0x00, c := r.carry } } := rfl

/-- What AND, EOR and ORA share. -/
theorem State.takeLogic_eq (s : State) (r : Byte) :
    s.takeLogic r = { s with a := r, flags := { s.flags with z := r == 0x00, n := r.getLsbD 7 } } := rfl

theorem State.takeX_eq (s : State) (r : Byte) :
    s.takeX r = { s with x := r, flags := { s.flags with z := r == 0x00, n := r.getLsbD 7 } } := rfl

theorem State.takeY_eq (s : State) (r : Byte) :
    s.takeY r = { s with y := r, flags := { s.flags with z := r == 0x00, n := r.getLsbD 7 } } := rfl

/-- What the three compares share. -/
theorem State.compare_eq (s : State) (reg m : Byte) :
    s.compare reg m = { s with
      flags := { s.flags with
        z := (reg - m) == 0x00, n := (reg - m).getLsbD 7, c := decide (m.toNat ≤ reg.toNat) } } := rfl

theorem State.bitTest_eq (s : State) (m : Byte) :
    s.bitTest m = { s with
      flags := { s.flags with z := (s.a &&& m) == 0x00, v := m.getLsbD 6, n := m.getLsbD 7 } } := rfl

/-- INC as the cell it rewrites. -/
theorem inc_eq (m : MemMode) (s : State) :
    inc m s = { s with
      flags := { s.flags with z := (s.read (ea m s) + 1) == 0x00, n := (s.read (ea m s) + 1).getLsbD 7 }
      mem := (s.write (ea m s) (s.read (ea m s) + 1)).mem } := rfl

/-- DEC as the cell it rewrites. -/
theorem dec_eq (m : MemMode) (s : State) :
    dec m s = { s with
      flags := { s.flags with z := (s.read (ea m s) - 1) == 0x00, n := (s.read (ea m s) - 1).getLsbD 7 }
      mem := (s.write (ea m s) (s.read (ea m s) - 1)).mem } := rfl

/-- A shift of A (45_shift_rotate R154). -/
theorem shiftPlace_acc (f : Byte → Bool → ShiftResult) (s : State) :
    shiftPlace f .acc s = { s with
      a := (f s.a s.flags.c).value
      flags := { s.flags with
        n := (f s.a s.flags.c).value.getLsbD 7
        z := (f s.a s.flags.c).value == 0x00
        c := (f s.a s.flags.c).carry } } := rfl

/-- A shift of a memory cell: the cell at the effective address is rewritten (45_shift_rotate R154). -/
theorem shiftPlace_mem (f : Byte → Bool → ShiftResult) (m : MemMode) (s : State) :
    shiftPlace f (.mem m) s = { s with
      flags := { s.flags with
        n := (f (s.read (ea m s)) s.flags.c).value.getLsbD 7
        z := (f (s.read (ea m s)) s.flags.c).value == 0x00
        c := (f (s.read (ea m s)) s.flags.c).carry }
      mem := (s.write (ea m s) (f (s.read (ea m s)) s.flags.c).value).mem } := by
  have h : ea m (s.setFlag .c (f (s.read (ea m s)) s.flags.c).carry) = ea m s := ea_congr m rfl rfl rfl
  simp only [shiftPlace, writeBack, Place.operand, readOperand, h]
  rfl

/-- A branch moves PC or leaves the state as it is (48_control R180). -/
theorem branch_cases (cond : Bool) (d : Byte) (s : State) :
    (cond = true ∧ branch cond d s = s.setPc (relativeTarget d s)) ∨ (cond = false ∧ branch cond d s = s) := by
  cases cond
  · exact .inr ⟨rfl, rfl⟩
  · exact .inl ⟨rfl, rfl⟩

/-- The state a JSR leaves, but for memory (48_control R191). -/
theorem callSub_eq (target : Word) (s : State) :
    callSub target s = { s with pc := target, sp := s.sp - 1 - 1, mem := (s.pushWord (s.pc - 1)).mem } := by
  rw [callSub, State.setPc]
  simp only [State.pushWord_a, State.pushWord_x, State.pushWord_y, State.pushWord_sp, State.pushWord_flags,
    State.pushWord_fault, State.pushWord_haltPc]

/-- The state an RTS leaves (48_control R192). -/
theorem returnSub_eq (s : State) : returnSub s = { s with pc := s.pullWord + 1, sp := s.sp + 1 + 1 } := rfl

end Sys2Proof.Machine
end

