-- ==== Sys2Proof/Laws/PerInstr.lean ====
section
/-! SUPPORT. The per-instruction family TableRow: the row the table gives an instruction's opcode byte (30_encoding R60, R64)
has the instruction's mnemonic, mode and length, and builds the instruction back from its own operand bytes. -/

namespace Sys2Proof.Laws

open Sys2Proof.Machine

/-- The two bytes of a word pair back to it. -/
theorem word_low_high (w : Word) : word (lowByte w) (highByte w) = w := by
  apply BitVec.eq_of_getLsbD_eq
  intro i hi
  simp only [word, lowByte, highByte, BitVec.getLsbD_append, BitVec.getLsbD_extractLsb']
  by_cases h : i < 8
  · simp [h]
  · have : i - 8 < 8 := by omega
    simp [h, this, show 8 + (i - 8) = i by omega]

/-- The row of the opcode names the instruction, and its `make` inverts the encoding of the operand. -/
def TableRow.Statement (i : Instr) : Prop :=
  ∃ r, rowOf i.opcode = some r ∧ r.mnemonic = i.mnemonic ∧ r.mode = i.mode ∧ r.length = (encode i).length ∧
    r.make (i.form.bytes.getD 0 0x00) (i.form.bytes.getD 1 0x00) = i

theorem TableRow.ldaImm (v : Byte) : TableRow.Statement (.ldaImm v) := ⟨_, rfl, rfl, rfl, rfl, rfl⟩
theorem TableRow.ldaZp (z : Byte) : TableRow.Statement (.ldaZp z) := ⟨_, rfl, rfl, rfl, rfl, rfl⟩
theorem TableRow.ldaZpx (z : Byte) : TableRow.Statement (.ldaZpx z) := ⟨_, rfl, rfl, rfl, rfl, rfl⟩
theorem TableRow.ldaAbs (w : Word) : TableRow.Statement (.ldaAbs w) := ⟨_, rfl, rfl, rfl, rfl, congrArg Instr.ldaAbs (word_low_high w)⟩
theorem TableRow.ldaAbsx (w : Word) : TableRow.Statement (.ldaAbsx w) := ⟨_, rfl, rfl, rfl, rfl, congrArg Instr.ldaAbsx (word_low_high w)⟩
theorem TableRow.ldaAbsy (w : Word) : TableRow.Statement (.ldaAbsy w) := ⟨_, rfl, rfl, rfl, rfl, congrArg Instr.ldaAbsy (word_low_high w)⟩
theorem TableRow.ldaIndx (z : Byte) : TableRow.Statement (.ldaIndx z) := ⟨_, rfl, rfl, rfl, rfl, rfl⟩
theorem TableRow.ldaIndy (z : Byte) : TableRow.Statement (.ldaIndy z) := ⟨_, rfl, rfl, rfl, rfl, rfl⟩
theorem TableRow.ldxImm (v : Byte) : TableRow.Statement (.ldxImm v) := ⟨_, rfl, rfl, rfl, rfl, rfl⟩
theorem TableRow.ldxZp (z : Byte) : TableRow.Statement (.ldxZp z) := ⟨_, rfl, rfl, rfl, rfl, rfl⟩
theorem TableRow.ldxZpy (z : Byte) : TableRow.Statement (.ldxZpy z) := ⟨_, rfl, rfl, rfl, rfl, rfl⟩
theorem TableRow.ldxAbs (w : Word) : TableRow.Statement (.ldxAbs w) := ⟨_, rfl, rfl, rfl, rfl, congrArg Instr.ldxAbs (word_low_high w)⟩
theorem TableRow.ldxAbsy (w : Word) : TableRow.Statement (.ldxAbsy w) := ⟨_, rfl, rfl, rfl, rfl, congrArg Instr.ldxAbsy (word_low_high w)⟩
theorem TableRow.ldyImm (v : Byte) : TableRow.Statement (.ldyImm v) := ⟨_, rfl, rfl, rfl, rfl, rfl⟩
theorem TableRow.ldyZp (z : Byte) : TableRow.Statement (.ldyZp z) := ⟨_, rfl, rfl, rfl, rfl, rfl⟩
theorem TableRow.ldyZpx (z : Byte) : TableRow.Statement (.ldyZpx z) := ⟨_, rfl, rfl, rfl, rfl, rfl⟩
theorem TableRow.ldyAbs (w : Word) : TableRow.Statement (.ldyAbs w) := ⟨_, rfl, rfl, rfl, rfl, congrArg Instr.ldyAbs (word_low_high w)⟩
theorem TableRow.ldyAbsx (w : Word) : TableRow.Statement (.ldyAbsx w) := ⟨_, rfl, rfl, rfl, rfl, congrArg Instr.ldyAbsx (word_low_high w)⟩
theorem TableRow.staZp (z : Byte) : TableRow.Statement (.staZp z) := ⟨_, rfl, rfl, rfl, rfl, rfl⟩
theorem TableRow.staZpx (z : Byte) : TableRow.Statement (.staZpx z) := ⟨_, rfl, rfl, rfl, rfl, rfl⟩
theorem TableRow.staAbs (w : Word) : TableRow.Statement (.staAbs w) := ⟨_, rfl, rfl, rfl, rfl, congrArg Instr.staAbs (word_low_high w)⟩
theorem TableRow.staAbsx (w : Word) : TableRow.Statement (.staAbsx w) := ⟨_, rfl, rfl, rfl, rfl, congrArg Instr.staAbsx (word_low_high w)⟩
theorem TableRow.staAbsy (w : Word) : TableRow.Statement (.staAbsy w) := ⟨_, rfl, rfl, rfl, rfl, congrArg Instr.staAbsy (word_low_high w)⟩
theorem TableRow.staIndx (z : Byte) : TableRow.Statement (.staIndx z) := ⟨_, rfl, rfl, rfl, rfl, rfl⟩
theorem TableRow.staIndy (z : Byte) : TableRow.Statement (.staIndy z) := ⟨_, rfl, rfl, rfl, rfl, rfl⟩
theorem TableRow.stxZp (z : Byte) : TableRow.Statement (.stxZp z) := ⟨_, rfl, rfl, rfl, rfl, rfl⟩
theorem TableRow.stxZpy (z : Byte) : TableRow.Statement (.stxZpy z) := ⟨_, rfl, rfl, rfl, rfl, rfl⟩
theorem TableRow.stxAbs (w : Word) : TableRow.Statement (.stxAbs w) := ⟨_, rfl, rfl, rfl, rfl, congrArg Instr.stxAbs (word_low_high w)⟩
theorem TableRow.styZp (z : Byte) : TableRow.Statement (.styZp z) := ⟨_, rfl, rfl, rfl, rfl, rfl⟩
theorem TableRow.styZpx (z : Byte) : TableRow.Statement (.styZpx z) := ⟨_, rfl, rfl, rfl, rfl, rfl⟩
theorem TableRow.styAbs (w : Word) : TableRow.Statement (.styAbs w) := ⟨_, rfl, rfl, rfl, rfl, congrArg Instr.styAbs (word_low_high w)⟩
theorem TableRow.adcImm (v : Byte) : TableRow.Statement (.adcImm v) := ⟨_, rfl, rfl, rfl, rfl, rfl⟩
theorem TableRow.adcZp (z : Byte) : TableRow.Statement (.adcZp z) := ⟨_, rfl, rfl, rfl, rfl, rfl⟩
theorem TableRow.adcZpx (z : Byte) : TableRow.Statement (.adcZpx z) := ⟨_, rfl, rfl, rfl, rfl, rfl⟩
theorem TableRow.adcAbs (w : Word) : TableRow.Statement (.adcAbs w) := ⟨_, rfl, rfl, rfl, rfl, congrArg Instr.adcAbs (word_low_high w)⟩
theorem TableRow.adcAbsx (w : Word) : TableRow.Statement (.adcAbsx w) := ⟨_, rfl, rfl, rfl, rfl, congrArg Instr.adcAbsx (word_low_high w)⟩
theorem TableRow.adcAbsy (w : Word) : TableRow.Statement (.adcAbsy w) := ⟨_, rfl, rfl, rfl, rfl, congrArg Instr.adcAbsy (word_low_high w)⟩
theorem TableRow.adcIndx (z : Byte) : TableRow.Statement (.adcIndx z) := ⟨_, rfl, rfl, rfl, rfl, rfl⟩
theorem TableRow.adcIndy (z : Byte) : TableRow.Statement (.adcIndy z) := ⟨_, rfl, rfl, rfl, rfl, rfl⟩
theorem TableRow.sbcImm (v : Byte) : TableRow.Statement (.sbcImm v) := ⟨_, rfl, rfl, rfl, rfl, rfl⟩
theorem TableRow.sbcZp (z : Byte) : TableRow.Statement (.sbcZp z) := ⟨_, rfl, rfl, rfl, rfl, rfl⟩
theorem TableRow.sbcZpx (z : Byte) : TableRow.Statement (.sbcZpx z) := ⟨_, rfl, rfl, rfl, rfl, rfl⟩
theorem TableRow.sbcAbs (w : Word) : TableRow.Statement (.sbcAbs w) := ⟨_, rfl, rfl, rfl, rfl, congrArg Instr.sbcAbs (word_low_high w)⟩
theorem TableRow.sbcAbsx (w : Word) : TableRow.Statement (.sbcAbsx w) := ⟨_, rfl, rfl, rfl, rfl, congrArg Instr.sbcAbsx (word_low_high w)⟩
theorem TableRow.sbcAbsy (w : Word) : TableRow.Statement (.sbcAbsy w) := ⟨_, rfl, rfl, rfl, rfl, congrArg Instr.sbcAbsy (word_low_high w)⟩
theorem TableRow.sbcIndx (z : Byte) : TableRow.Statement (.sbcIndx z) := ⟨_, rfl, rfl, rfl, rfl, rfl⟩
theorem TableRow.sbcIndy (z : Byte) : TableRow.Statement (.sbcIndy z) := ⟨_, rfl, rfl, rfl, rfl, rfl⟩
theorem TableRow.incZp (z : Byte) : TableRow.Statement (.incZp z) := ⟨_, rfl, rfl, rfl, rfl, rfl⟩
theorem TableRow.incZpx (z : Byte) : TableRow.Statement (.incZpx z) := ⟨_, rfl, rfl, rfl, rfl, rfl⟩
theorem TableRow.incAbs (w : Word) : TableRow.Statement (.incAbs w) := ⟨_, rfl, rfl, rfl, rfl, congrArg Instr.incAbs (word_low_high w)⟩
theorem TableRow.incAbsx (w : Word) : TableRow.Statement (.incAbsx w) := ⟨_, rfl, rfl, rfl, rfl, congrArg Instr.incAbsx (word_low_high w)⟩
theorem TableRow.decZp (z : Byte) : TableRow.Statement (.decZp z) := ⟨_, rfl, rfl, rfl, rfl, rfl⟩
theorem TableRow.decZpx (z : Byte) : TableRow.Statement (.decZpx z) := ⟨_, rfl, rfl, rfl, rfl, rfl⟩
theorem TableRow.decAbs (w : Word) : TableRow.Statement (.decAbs w) := ⟨_, rfl, rfl, rfl, rfl, congrArg Instr.decAbs (word_low_high w)⟩
theorem TableRow.decAbsx (w : Word) : TableRow.Statement (.decAbsx w) := ⟨_, rfl, rfl, rfl, rfl, congrArg Instr.decAbsx (word_low_high w)⟩
theorem TableRow.inx : TableRow.Statement (.inx) := ⟨_, rfl, rfl, rfl, rfl, rfl⟩
theorem TableRow.iny : TableRow.Statement (.iny) := ⟨_, rfl, rfl, rfl, rfl, rfl⟩
theorem TableRow.dex : TableRow.Statement (.dex) := ⟨_, rfl, rfl, rfl, rfl, rfl⟩
theorem TableRow.dey : TableRow.Statement (.dey) := ⟨_, rfl, rfl, rfl, rfl, rfl⟩
theorem TableRow.tax : TableRow.Statement (.tax) := ⟨_, rfl, rfl, rfl, rfl, rfl⟩
theorem TableRow.tay : TableRow.Statement (.tay) := ⟨_, rfl, rfl, rfl, rfl, rfl⟩
theorem TableRow.txa : TableRow.Statement (.txa) := ⟨_, rfl, rfl, rfl, rfl, rfl⟩
theorem TableRow.tya : TableRow.Statement (.tya) := ⟨_, rfl, rfl, rfl, rfl, rfl⟩
theorem TableRow.tsx : TableRow.Statement (.tsx) := ⟨_, rfl, rfl, rfl, rfl, rfl⟩
theorem TableRow.txs : TableRow.Statement (.txs) := ⟨_, rfl, rfl, rfl, rfl, rfl⟩
theorem TableRow.andImm (v : Byte) : TableRow.Statement (.andImm v) := ⟨_, rfl, rfl, rfl, rfl, rfl⟩
theorem TableRow.andZp (z : Byte) : TableRow.Statement (.andZp z) := ⟨_, rfl, rfl, rfl, rfl, rfl⟩
theorem TableRow.andZpx (z : Byte) : TableRow.Statement (.andZpx z) := ⟨_, rfl, rfl, rfl, rfl, rfl⟩
theorem TableRow.andAbs (w : Word) : TableRow.Statement (.andAbs w) := ⟨_, rfl, rfl, rfl, rfl, congrArg Instr.andAbs (word_low_high w)⟩
theorem TableRow.andAbsx (w : Word) : TableRow.Statement (.andAbsx w) := ⟨_, rfl, rfl, rfl, rfl, congrArg Instr.andAbsx (word_low_high w)⟩
theorem TableRow.andAbsy (w : Word) : TableRow.Statement (.andAbsy w) := ⟨_, rfl, rfl, rfl, rfl, congrArg Instr.andAbsy (word_low_high w)⟩
theorem TableRow.andIndx (z : Byte) : TableRow.Statement (.andIndx z) := ⟨_, rfl, rfl, rfl, rfl, rfl⟩
theorem TableRow.andIndy (z : Byte) : TableRow.Statement (.andIndy z) := ⟨_, rfl, rfl, rfl, rfl, rfl⟩
theorem TableRow.eorImm (v : Byte) : TableRow.Statement (.eorImm v) := ⟨_, rfl, rfl, rfl, rfl, rfl⟩
theorem TableRow.eorZp (z : Byte) : TableRow.Statement (.eorZp z) := ⟨_, rfl, rfl, rfl, rfl, rfl⟩
theorem TableRow.eorZpx (z : Byte) : TableRow.Statement (.eorZpx z) := ⟨_, rfl, rfl, rfl, rfl, rfl⟩
theorem TableRow.eorAbs (w : Word) : TableRow.Statement (.eorAbs w) := ⟨_, rfl, rfl, rfl, rfl, congrArg Instr.eorAbs (word_low_high w)⟩
theorem TableRow.eorAbsx (w : Word) : TableRow.Statement (.eorAbsx w) := ⟨_, rfl, rfl, rfl, rfl, congrArg Instr.eorAbsx (word_low_high w)⟩
theorem TableRow.eorAbsy (w : Word) : TableRow.Statement (.eorAbsy w) := ⟨_, rfl, rfl, rfl, rfl, congrArg Instr.eorAbsy (word_low_high w)⟩
theorem TableRow.eorIndx (z : Byte) : TableRow.Statement (.eorIndx z) := ⟨_, rfl, rfl, rfl, rfl, rfl⟩
theorem TableRow.eorIndy (z : Byte) : TableRow.Statement (.eorIndy z) := ⟨_, rfl, rfl, rfl, rfl, rfl⟩
theorem TableRow.oraImm (v : Byte) : TableRow.Statement (.oraImm v) := ⟨_, rfl, rfl, rfl, rfl, rfl⟩
theorem TableRow.oraZp (z : Byte) : TableRow.Statement (.oraZp z) := ⟨_, rfl, rfl, rfl, rfl, rfl⟩
theorem TableRow.oraZpx (z : Byte) : TableRow.Statement (.oraZpx z) := ⟨_, rfl, rfl, rfl, rfl, rfl⟩
theorem TableRow.oraAbs (w : Word) : TableRow.Statement (.oraAbs w) := ⟨_, rfl, rfl, rfl, rfl, congrArg Instr.oraAbs (word_low_high w)⟩
theorem TableRow.oraAbsx (w : Word) : TableRow.Statement (.oraAbsx w) := ⟨_, rfl, rfl, rfl, rfl, congrArg Instr.oraAbsx (word_low_high w)⟩
theorem TableRow.oraAbsy (w : Word) : TableRow.Statement (.oraAbsy w) := ⟨_, rfl, rfl, rfl, rfl, congrArg Instr.oraAbsy (word_low_high w)⟩
theorem TableRow.oraIndx (z : Byte) : TableRow.Statement (.oraIndx z) := ⟨_, rfl, rfl, rfl, rfl, rfl⟩
theorem TableRow.oraIndy (z : Byte) : TableRow.Statement (.oraIndy z) := ⟨_, rfl, rfl, rfl, rfl, rfl⟩
theorem TableRow.cmpImm (v : Byte) : TableRow.Statement (.cmpImm v) := ⟨_, rfl, rfl, rfl, rfl, rfl⟩
theorem TableRow.cmpZp (z : Byte) : TableRow.Statement (.cmpZp z) := ⟨_, rfl, rfl, rfl, rfl, rfl⟩
theorem TableRow.cmpZpx (z : Byte) : TableRow.Statement (.cmpZpx z) := ⟨_, rfl, rfl, rfl, rfl, rfl⟩
theorem TableRow.cmpAbs (w : Word) : TableRow.Statement (.cmpAbs w) := ⟨_, rfl, rfl, rfl, rfl, congrArg Instr.cmpAbs (word_low_high w)⟩
theorem TableRow.cmpAbsx (w : Word) : TableRow.Statement (.cmpAbsx w) := ⟨_, rfl, rfl, rfl, rfl, congrArg Instr.cmpAbsx (word_low_high w)⟩
theorem TableRow.cmpAbsy (w : Word) : TableRow.Statement (.cmpAbsy w) := ⟨_, rfl, rfl, rfl, rfl, congrArg Instr.cmpAbsy (word_low_high w)⟩
theorem TableRow.cmpIndx (z : Byte) : TableRow.Statement (.cmpIndx z) := ⟨_, rfl, rfl, rfl, rfl, rfl⟩
theorem TableRow.cmpIndy (z : Byte) : TableRow.Statement (.cmpIndy z) := ⟨_, rfl, rfl, rfl, rfl, rfl⟩
theorem TableRow.cpxImm (v : Byte) : TableRow.Statement (.cpxImm v) := ⟨_, rfl, rfl, rfl, rfl, rfl⟩
theorem TableRow.cpxZp (z : Byte) : TableRow.Statement (.cpxZp z) := ⟨_, rfl, rfl, rfl, rfl, rfl⟩
theorem TableRow.cpxAbs (w : Word) : TableRow.Statement (.cpxAbs w) := ⟨_, rfl, rfl, rfl, rfl, congrArg Instr.cpxAbs (word_low_high w)⟩
theorem TableRow.cpyImm (v : Byte) : TableRow.Statement (.cpyImm v) := ⟨_, rfl, rfl, rfl, rfl, rfl⟩
theorem TableRow.cpyZp (z : Byte) : TableRow.Statement (.cpyZp z) := ⟨_, rfl, rfl, rfl, rfl, rfl⟩
theorem TableRow.cpyAbs (w : Word) : TableRow.Statement (.cpyAbs w) := ⟨_, rfl, rfl, rfl, rfl, congrArg Instr.cpyAbs (word_low_high w)⟩
theorem TableRow.bitZp (z : Byte) : TableRow.Statement (.bitZp z) := ⟨_, rfl, rfl, rfl, rfl, rfl⟩
theorem TableRow.bitAbs (w : Word) : TableRow.Statement (.bitAbs w) := ⟨_, rfl, rfl, rfl, rfl, congrArg Instr.bitAbs (word_low_high w)⟩
theorem TableRow.aslAcc : TableRow.Statement (.aslAcc) := ⟨_, rfl, rfl, rfl, rfl, rfl⟩
theorem TableRow.aslZp (z : Byte) : TableRow.Statement (.aslZp z) := ⟨_, rfl, rfl, rfl, rfl, rfl⟩
theorem TableRow.aslZpx (z : Byte) : TableRow.Statement (.aslZpx z) := ⟨_, rfl, rfl, rfl, rfl, rfl⟩
theorem TableRow.aslAbs (w : Word) : TableRow.Statement (.aslAbs w) := ⟨_, rfl, rfl, rfl, rfl, congrArg Instr.aslAbs (word_low_high w)⟩
theorem TableRow.aslAbsx (w : Word) : TableRow.Statement (.aslAbsx w) := ⟨_, rfl, rfl, rfl, rfl, congrArg Instr.aslAbsx (word_low_high w)⟩
theorem TableRow.lsrAcc : TableRow.Statement (.lsrAcc) := ⟨_, rfl, rfl, rfl, rfl, rfl⟩
theorem TableRow.lsrZp (z : Byte) : TableRow.Statement (.lsrZp z) := ⟨_, rfl, rfl, rfl, rfl, rfl⟩
theorem TableRow.lsrZpx (z : Byte) : TableRow.Statement (.lsrZpx z) := ⟨_, rfl, rfl, rfl, rfl, rfl⟩
theorem TableRow.lsrAbs (w : Word) : TableRow.Statement (.lsrAbs w) := ⟨_, rfl, rfl, rfl, rfl, congrArg Instr.lsrAbs (word_low_high w)⟩
theorem TableRow.lsrAbsx (w : Word) : TableRow.Statement (.lsrAbsx w) := ⟨_, rfl, rfl, rfl, rfl, congrArg Instr.lsrAbsx (word_low_high w)⟩
theorem TableRow.rolAcc : TableRow.Statement (.rolAcc) := ⟨_, rfl, rfl, rfl, rfl, rfl⟩
theorem TableRow.rolZp (z : Byte) : TableRow.Statement (.rolZp z) := ⟨_, rfl, rfl, rfl, rfl, rfl⟩
theorem TableRow.rolZpx (z : Byte) : TableRow.Statement (.rolZpx z) := ⟨_, rfl, rfl, rfl, rfl, rfl⟩
theorem TableRow.rolAbs (w : Word) : TableRow.Statement (.rolAbs w) := ⟨_, rfl, rfl, rfl, rfl, congrArg Instr.rolAbs (word_low_high w)⟩
theorem TableRow.rolAbsx (w : Word) : TableRow.Statement (.rolAbsx w) := ⟨_, rfl, rfl, rfl, rfl, congrArg Instr.rolAbsx (word_low_high w)⟩
theorem TableRow.rorAcc : TableRow.Statement (.rorAcc) := ⟨_, rfl, rfl, rfl, rfl, rfl⟩
theorem TableRow.rorZp (z : Byte) : TableRow.Statement (.rorZp z) := ⟨_, rfl, rfl, rfl, rfl, rfl⟩
theorem TableRow.rorZpx (z : Byte) : TableRow.Statement (.rorZpx z) := ⟨_, rfl, rfl, rfl, rfl, rfl⟩
theorem TableRow.rorAbs (w : Word) : TableRow.Statement (.rorAbs w) := ⟨_, rfl, rfl, rfl, rfl, congrArg Instr.rorAbs (word_low_high w)⟩
theorem TableRow.rorAbsx (w : Word) : TableRow.Statement (.rorAbsx w) := ⟨_, rfl, rfl, rfl, rfl, congrArg Instr.rorAbsx (word_low_high w)⟩
theorem TableRow.clc : TableRow.Statement (.clc) := ⟨_, rfl, rfl, rfl, rfl, rfl⟩
theorem TableRow.cld : TableRow.Statement (.cld) := ⟨_, rfl, rfl, rfl, rfl, rfl⟩
theorem TableRow.cli : TableRow.Statement (.cli) := ⟨_, rfl, rfl, rfl, rfl, rfl⟩
theorem TableRow.clv : TableRow.Statement (.clv) := ⟨_, rfl, rfl, rfl, rfl, rfl⟩
theorem TableRow.sec : TableRow.Statement (.sec) := ⟨_, rfl, rfl, rfl, rfl, rfl⟩
theorem TableRow.sed : TableRow.Statement (.sed) := ⟨_, rfl, rfl, rfl, rfl, rfl⟩
theorem TableRow.sei : TableRow.Statement (.sei) := ⟨_, rfl, rfl, rfl, rfl, rfl⟩
theorem TableRow.nop : TableRow.Statement (.nop) := ⟨_, rfl, rfl, rfl, rfl, rfl⟩
theorem TableRow.pha : TableRow.Statement (.pha) := ⟨_, rfl, rfl, rfl, rfl, rfl⟩
theorem TableRow.php : TableRow.Statement (.php) := ⟨_, rfl, rfl, rfl, rfl, rfl⟩
theorem TableRow.pla : TableRow.Statement (.pla) := ⟨_, rfl, rfl, rfl, rfl, rfl⟩
theorem TableRow.plp : TableRow.Statement (.plp) := ⟨_, rfl, rfl, rfl, rfl, rfl⟩
theorem TableRow.bcc (d : Byte) : TableRow.Statement (.bcc d) := ⟨_, rfl, rfl, rfl, rfl, rfl⟩
theorem TableRow.bcs (d : Byte) : TableRow.Statement (.bcs d) := ⟨_, rfl, rfl, rfl, rfl, rfl⟩
theorem TableRow.beq (d : Byte) : TableRow.Statement (.beq d) := ⟨_, rfl, rfl, rfl, rfl, rfl⟩
theorem TableRow.bmi (d : Byte) : TableRow.Statement (.bmi d) := ⟨_, rfl, rfl, rfl, rfl, rfl⟩
theorem TableRow.bne (d : Byte) : TableRow.Statement (.bne d) := ⟨_, rfl, rfl, rfl, rfl, rfl⟩
theorem TableRow.bpl (d : Byte) : TableRow.Statement (.bpl d) := ⟨_, rfl, rfl, rfl, rfl, rfl⟩
theorem TableRow.bvc (d : Byte) : TableRow.Statement (.bvc d) := ⟨_, rfl, rfl, rfl, rfl, rfl⟩
theorem TableRow.bvs (d : Byte) : TableRow.Statement (.bvs d) := ⟨_, rfl, rfl, rfl, rfl, rfl⟩
theorem TableRow.jmpAbs (w : Word) : TableRow.Statement (.jmpAbs w) := ⟨_, rfl, rfl, rfl, rfl, congrArg Instr.jmpAbs (word_low_high w)⟩
theorem TableRow.jmpInd (w : Word) : TableRow.Statement (.jmpInd w) := ⟨_, rfl, rfl, rfl, rfl, congrArg Instr.jmpInd (word_low_high w)⟩
theorem TableRow.jsr (w : Word) : TableRow.Statement (.jsr w) := ⟨_, rfl, rfl, rfl, rfl, congrArg Instr.jsr (word_low_high w)⟩
theorem TableRow.rts : TableRow.Statement (.rts) := ⟨_, rfl, rfl, rfl, rfl, rfl⟩
theorem TableRow.brk : TableRow.Statement (.brk) := ⟨_, rfl, rfl, rfl, rfl, rfl⟩
theorem TableRow.rti : TableRow.Statement (.rti) := ⟨_, rfl, rfl, rfl, rfl, rfl⟩

end Sys2Proof.Laws
end

