-- ==== Sys2Proof/Laws/Run.lean ====
section
/-! SUPPORT. Runs (40_dispatch R76) taken apart at their first step and at their last. -/

namespace Sys2Proof

open Sys2Proof.Machine

theorem runsTo_zero {s t : State} : RunsTo 0 s t ↔ s = t :=
  ⟨fun h => Host.Outcome.next.inj (show Host.Outcome.next s = .next t from h), fun h => h ▸ rfl⟩

/-- A run of any machine, unfolded at its first step. -/
theorem run_succ (M : Host.Core) (n : Nat) (s : M.State) :
    M.run (n + 1) s =
      match M.step s with
      | .next u => M.run n u
      | .fault r => .fault r
      | .refused r => .refused r := rfl

/-- A run of `n + 1` steps is a step and a run of `n` steps. -/
theorem runsTo_succ {n : Nat} {s t : State} : RunsTo (n + 1) s t ↔ ∃ u, step s = .next u ∧ RunsTo n u t := by
  have first := run_succ core n s
  constructor
  · intro h
    have h := first.symm.trans h
    cases hs : step s with
    | next u => rw [show core.step s = .next u from hs] at h; exact ⟨u, rfl, h⟩
    | fault r => rw [show core.step s = .fault r from hs] at h; cases h
    | refused r => rw [show core.step s = .refused r from hs] at h; cases h
  · intro ⟨u, hs, hu⟩
    rw [show core.step s = .next u from hs] at first
    exact first.trans hu

/-- A run extended by one step at its end. -/
theorem RunsTo.snoc {n : Nat} {s t u : State} (h : RunsTo n s t) (hu : step t = .next u) : RunsTo (n + 1) s u := by
  induction n generalizing s with
  | zero =>
    obtain rfl := runsTo_zero.1 h
    exact runsTo_succ.2 ⟨u, hu, runsTo_zero.2 rfl⟩
  | succ n ih =>
    obtain ⟨v, hv, hr⟩ := runsTo_succ.1 h
    exact runsTo_succ.2 ⟨v, hv, ih hr⟩

end Sys2Proof
end

