-- ==== Sys2Proof/Laws/Step.lean ====
section
/-! SUPPORT. What a fetch and a step can do, said once. -/

namespace Sys2Proof.Machine

/-- The fetch, by the row of the opcode byte (40_dispatch R77). -/
theorem fetch_eq (s : State) {r : OpcodeRow} (h : rowOf (s.read s.pc) = some r) :
    fetch s = some (r.make (operandByte s r.length 1) (operandByte s r.length 2), s.pc + BitVec.ofNat 16 r.length) := by
  simp [fetch, h]

theorem fetch_none_iff (s : State) : fetch s = none ↔ rowOf (s.read s.pc) = none := by
  unfold fetch
  split <;> simp_all

theorem isFinal_iff (s : State) : s.isFinal = true ↔ s.fault = none ∧ s.pc ∈ s.haltPc := by
  simp [State.isFinal]

/-- A running state steps as its fetch says (40_dispatch R77). -/
theorem step_running {s : State} (hf : s.fault = none) (hp : s.pc ∉ s.haltPc) :
    step s = match fetch s with
      | none => .fault (illegalOpcodeFault s)
      | some (i, next) => exec i (s.setPc next) := by
  have hfin : s.isFinal = false := by simp [State.isFinal, hp]
  simp only [step, hf, hfin]
  cases fetch s <;> rfl

/-- The inversion of a step that answers a next state: it fetched an instruction and executed it. -/
theorem step_next {s t : State} (h : step s = .next t) :
    s.fault = none ∧ s.pc ∉ s.haltPc ∧ ∃ i next, fetch s = some (i, next) ∧ exec i (s.setPc next) = .next t := by
  unfold step at h
  split at h
  · cases h
  · next hf =>
    split at h
    · cases h
    · next hfin =>
      split at h
      · cases h
      · next i next hi => exact ⟨hf, fun hp => hfin ((isFinal_iff s).2 ⟨hf, hp⟩), i, next, hi, h⟩

end Sys2Proof.Machine
end

