-- ==== Sys2Proof/Laws/Syntax.lean ====
section
/-! SUPPORT. Every term of Instr is well formed: its mnemonic has its mode. -/

namespace Sys2Proof

/-- The constructors of Instr are exactly encodings their mnemonics have. -/
theorem Instr.wf_all (i : Instr) : i.wf = true := by
  cases i <;> rfl

end Sys2Proof
end

