-- ==== Sys2Proof/Machine/Assembly.lean ====
section
/-! DEFINITION. The conventional assembler text of an instruction (30_encoding R68). Beside the machine: no step reads it. -/

namespace Sys2Proof.Machine

/-- One hexadecimal digit. -/
def hexDigit (k : Nat) : String :=
  ["0", "1", "2", "3", "4", "5", "6", "7", "8", "9", "A", "B", "C", "D", "E", "F"].getD (k % 16) ""

/-- A byte as two hexadecimal digits. -/
def hexByte (b : Byte) : String := hexDigit (b.toNat / 16) ++ hexDigit b.toNat

/-- A word as four hexadecimal digits. -/
def hexWord (w : Word) : String := hexByte (highByte w) ++ hexByte (lowByte w)

/-- The operand text of a form. `next` is the address of the next instruction: a branch names its target's address in place
of the label of R68 (log 8). -/
def Form.text (f : Form) (next : Word) : String :=
  match f with
  | .imp => ""
  | .data .acc => " A"
  | .data (.imm v) => " #$" ++ hexByte v
  | .data (.mem (.zp z)) => " $" ++ hexByte z
  | .data (.mem (.zpx z)) => " $" ++ hexByte z ++ ",X"
  | .data (.mem (.zpy z)) => " $" ++ hexByte z ++ ",Y"
  | .data (.mem (.abs w)) => " $" ++ hexWord w
  | .data (.mem (.absx w)) => " $" ++ hexWord w ++ ",X"
  | .data (.mem (.absy w)) => " $" ++ hexWord w ++ ",Y"
  | .data (.mem (.indx z)) => " ($" ++ hexByte z ++ ",X)"
  | .data (.mem (.indy z)) => " ($" ++ hexByte z ++ "),Y"
  | .ind w => " ($" ++ hexWord w ++ ")"
  | .rel d => " $" ++ hexWord (next + sext16 d)

/-- The assembler text of an instruction at `pc` (30_encoding R68). -/
def assemblyText (i : Instr) (pc : Word) : String :=
  i.mnemonic.text ++ Form.text i.form (pc + BitVec.ofNat 16 i.mode.length)

end Sys2Proof.Machine
end

