-- ==== Sys2Proof/Tests/Slice0.lean ====
section
/-! SUPPORT. The model's own tests. Expected values are the spec's: the Encodings lines of files 41 to 48, the vectors V1–V125
and the examples of 95_test_vectors, the examples of the rules named. The last part holds the witnesses of the obligations'
hypotheses. -/

namespace Sys2Proof.Tests

open Sys2Proof.Machine Sys2Proof.Claims

/-! ### Well-formedness: ill-formed terms are refused -/

/-- There is no "STA #" (41_load_store R103). -/
theorem test_wf_refuses_sta_immediate : Form.wfFor (.data (.imm 0x10)) .sta = false := by decide

/-- INC has no accumulator form (42_arithmetic R115). -/
theorem test_wf_refuses_inc_accumulator : Form.wfFor (.data .acc) .inc = false := by decide

/-- LDX has no X-indexed mode (41_load_store R101). -/
theorem test_wf_refuses_ldx_indexed_by_x : Form.wfFor (.data (.mem (.zpx 0x20))) .ldx = false := by decide

/-- BIT has no immediate or indexed form (44_logic_compare R142). -/
theorem test_wf_refuses_bit_immediate : Form.wfFor (.data (.imm 0x10)) .bit = false := by decide

/-- JSR has no indirect form (48_control R191). -/
theorem test_wf_refuses_jsr_indirect : Form.wfFor (.ind 0x1234) .jsr = false := by decide

theorem test_wf_accepts_jmp_indirect : Form.wfFor (.ind 0x1234) .jmp = true := by decide

theorem test_memory_wf_refuses_unsorted : Memory.wf [(2, 0x01), (1, 0x01)] = false := by decide

theorem test_memory_wf_refuses_repeats : Memory.wf [(1, 0x01), (1, 0x02)] = false := by decide

theorem test_memory_wf_refuses_a_listed_zero : Memory.wf [(1, 0x00)] = false := by decide

theorem test_memory_wf_refuses_address_65536 : Memory.wf [(65536, 0x01)] = false := by decide

theorem test_memory_wf_accepts_both_ends : Memory.wf [(0, 0x01), (65535, 0xFF)] = true := by decide

/-! ### Decoding: one word of every constructor, its opcode byte from the Encodings line of its rule, its operand bytes from
30_encoding R55 and R57 (low byte first) -/

/-- Each list of bytes decodes to the instruction beside it, with nothing left over. -/
def DecodesTo (rows : List (List Byte × Instr)) : Prop := rows.map (fun r => decode r.1) = rows.map (fun r => .ok r.2 [])

/-- 41_load_store R100–R105. -/
theorem test_decode_loads_1 : DecodesTo [
  ([0xA9, 0x10], .ldaImm 0x10), ([0xA5, 0x20], .ldaZp 0x20), ([0xB5, 0x20], .ldaZpx 0x20),
  ([0xAD, 0x34, 0x12], .ldaAbs 0x1234), ([0xBD, 0x34, 0x12], .ldaAbsx 0x1234), ([0xB9, 0x34, 0x12], .ldaAbsy 0x1234),
  ([0xA1, 0x20], .ldaIndx 0x20), ([0xB1, 0x20], .ldaIndy 0x20), ([0xA2, 0x10], .ldxImm 0x10),
  ([0xA6, 0x20], .ldxZp 0x20), ([0xB6, 0x20], .ldxZpy 0x20), ([0xAE, 0x34, 0x12], .ldxAbs 0x1234)] := rfl

theorem test_decode_loads_2 : DecodesTo [
  ([0xBE, 0x34, 0x12], .ldxAbsy 0x1234), ([0xA0, 0x10], .ldyImm 0x10), ([0xA4, 0x20], .ldyZp 0x20),
  ([0xB4, 0x20], .ldyZpx 0x20), ([0xAC, 0x34, 0x12], .ldyAbs 0x1234), ([0xBC, 0x34, 0x12], .ldyAbsx 0x1234),
  ([0x85, 0x20], .staZp 0x20), ([0x95, 0x20], .staZpx 0x20), ([0x8D, 0x34, 0x12], .staAbs 0x1234),
  ([0x9D, 0x34, 0x12], .staAbsx 0x1234), ([0x99, 0x34, 0x12], .staAbsy 0x1234), ([0x81, 0x20], .staIndx 0x20)] := rfl

theorem test_decode_loads_3 : DecodesTo [
  ([0x91, 0x20], .staIndy 0x20), ([0x86, 0x20], .stxZp 0x20), ([0x96, 0x20], .stxZpy 0x20),
  ([0x8E, 0x34, 0x12], .stxAbs 0x1234), ([0x84, 0x20], .styZp 0x20), ([0x94, 0x20], .styZpx 0x20),
  ([0x8C, 0x34, 0x12], .styAbs 0x1234)] := rfl

/-- 42_arithmetic R110–R121. -/
theorem test_decode_arithmetic_1 : DecodesTo [
  ([0x69, 0x10], .adcImm 0x10), ([0x65, 0x20], .adcZp 0x20), ([0x75, 0x20], .adcZpx 0x20),
  ([0x6D, 0x34, 0x12], .adcAbs 0x1234), ([0x7D, 0x34, 0x12], .adcAbsx 0x1234), ([0x79, 0x34, 0x12], .adcAbsy 0x1234),
  ([0x61, 0x20], .adcIndx 0x20), ([0x71, 0x20], .adcIndy 0x20), ([0xE9, 0x10], .sbcImm 0x10),
  ([0xE5, 0x20], .sbcZp 0x20), ([0xF5, 0x20], .sbcZpx 0x20), ([0xED, 0x34, 0x12], .sbcAbs 0x1234)] := rfl

theorem test_decode_arithmetic_2 : DecodesTo [
  ([0xFD, 0x34, 0x12], .sbcAbsx 0x1234), ([0xF9, 0x34, 0x12], .sbcAbsy 0x1234), ([0xE1, 0x20], .sbcIndx 0x20),
  ([0xF1, 0x20], .sbcIndy 0x20), ([0xE6, 0x20], .incZp 0x20), ([0xF6, 0x20], .incZpx 0x20),
  ([0xEE, 0x34, 0x12], .incAbs 0x1234), ([0xFE, 0x34, 0x12], .incAbsx 0x1234), ([0xC6, 0x20], .decZp 0x20),
  ([0xD6, 0x20], .decZpx 0x20), ([0xCE, 0x34, 0x12], .decAbs 0x1234), ([0xDE, 0x34, 0x12], .decAbsx 0x1234)] := rfl

theorem test_decode_arithmetic_3 : DecodesTo [
  ([0xE8], .inx), ([0xC8], .iny), ([0xCA], .dex), ([0x88], .dey)] := rfl

/-- 43_transfer R125–R130. -/
theorem test_decode_transfer : DecodesTo [
  ([0xAA], .tax), ([0xA8], .tay), ([0x8A], .txa), ([0x98], .tya), ([0xBA], .tsx), ([0x9A], .txs)] := rfl

/-- 44_logic_compare R135–R142. -/
theorem test_decode_logic_1 : DecodesTo [
  ([0x29, 0x10], .andImm 0x10), ([0x25, 0x20], .andZp 0x20), ([0x35, 0x20], .andZpx 0x20),
  ([0x2D, 0x34, 0x12], .andAbs 0x1234), ([0x3D, 0x34, 0x12], .andAbsx 0x1234), ([0x39, 0x34, 0x12], .andAbsy 0x1234),
  ([0x21, 0x20], .andIndx 0x20), ([0x31, 0x20], .andIndy 0x20), ([0x49, 0x10], .eorImm 0x10),
  ([0x45, 0x20], .eorZp 0x20), ([0x55, 0x20], .eorZpx 0x20), ([0x4D, 0x34, 0x12], .eorAbs 0x1234)] := rfl

theorem test_decode_logic_2 : DecodesTo [
  ([0x5D, 0x34, 0x12], .eorAbsx 0x1234), ([0x59, 0x34, 0x12], .eorAbsy 0x1234), ([0x41, 0x20], .eorIndx 0x20),
  ([0x51, 0x20], .eorIndy 0x20), ([0x09, 0x10], .oraImm 0x10), ([0x05, 0x20], .oraZp 0x20), ([0x15, 0x20], .oraZpx 0x20),
  ([0x0D, 0x34, 0x12], .oraAbs 0x1234), ([0x1D, 0x34, 0x12], .oraAbsx 0x1234), ([0x19, 0x34, 0x12], .oraAbsy 0x1234),
  ([0x01, 0x20], .oraIndx 0x20), ([0x11, 0x20], .oraIndy 0x20)] := rfl

theorem test_decode_logic_3 : DecodesTo [
  ([0xC9, 0x10], .cmpImm 0x10), ([0xC5, 0x20], .cmpZp 0x20), ([0xD5, 0x20], .cmpZpx 0x20),
  ([0xCD, 0x34, 0x12], .cmpAbs 0x1234), ([0xDD, 0x34, 0x12], .cmpAbsx 0x1234), ([0xD9, 0x34, 0x12], .cmpAbsy 0x1234),
  ([0xC1, 0x20], .cmpIndx 0x20), ([0xD1, 0x20], .cmpIndy 0x20), ([0xE0, 0x10], .cpxImm 0x10),
  ([0xE4, 0x20], .cpxZp 0x20), ([0xEC, 0x34, 0x12], .cpxAbs 0x1234), ([0xC0, 0x10], .cpyImm 0x10)] := rfl

theorem test_decode_logic_4 : DecodesTo [
  ([0xC4, 0x20], .cpyZp 0x20), ([0xCC, 0x34, 0x12], .cpyAbs 0x1234), ([0x24, 0x20], .bitZp 0x20),
  ([0x2C, 0x34, 0x12], .bitAbs 0x1234)] := rfl

/-- 45_shift_rotate R150–R154. -/
theorem test_decode_shift_1 : DecodesTo [
  ([0x0A], .aslAcc), ([0x06, 0x20], .aslZp 0x20), ([0x16, 0x20], .aslZpx 0x20), ([0x0E, 0x34, 0x12], .aslAbs 0x1234),
  ([0x1E, 0x34, 0x12], .aslAbsx 0x1234), ([0x4A], .lsrAcc), ([0x46, 0x20], .lsrZp 0x20), ([0x56, 0x20], .lsrZpx 0x20),
  ([0x4E, 0x34, 0x12], .lsrAbs 0x1234), ([0x5E, 0x34, 0x12], .lsrAbsx 0x1234), ([0x2A], .rolAcc),
  ([0x26, 0x20], .rolZp 0x20)] := rfl

theorem test_decode_shift_2 : DecodesTo [
  ([0x36, 0x20], .rolZpx 0x20), ([0x2E, 0x34, 0x12], .rolAbs 0x1234), ([0x3E, 0x34, 0x12], .rolAbsx 0x1234),
  ([0x6A], .rorAcc), ([0x66, 0x20], .rorZp 0x20), ([0x76, 0x20], .rorZpx 0x20), ([0x6E, 0x34, 0x12], .rorAbs 0x1234),
  ([0x7E, 0x34, 0x12], .rorAbsx 0x1234)] := rfl

/-- 46_flags_nop R160–R167. -/
theorem test_decode_flagops : DecodesTo [
  ([0x18], .clc), ([0xD8], .cld), ([0x58], .cli), ([0xB8], .clv), ([0x38], .sec), ([0xF8], .sed), ([0x78], .sei),
  ([0xEA], .nop)] := rfl

/-- 47_stack R170–R174. -/
theorem test_decode_stack : DecodesTo [
  ([0x48], .pha), ([0x08], .php), ([0x68], .pla), ([0x28], .plp)] := rfl

/-- 48_control R180–R194. -/
theorem test_decode_control_1 : DecodesTo [
  ([0x90, 0xFE], .bcc 0xFE), ([0xB0, 0xFE], .bcs 0xFE), ([0xF0, 0xFE], .beq 0xFE), ([0x30, 0xFE], .bmi 0xFE),
  ([0xD0, 0xFE], .bne 0xFE), ([0x10, 0xFE], .bpl 0xFE), ([0x50, 0xFE], .bvc 0xFE), ([0x70, 0xFE], .bvs 0xFE),
  ([0x4C, 0x34, 0x12], .jmpAbs 0x1234), ([0x6C, 0x34, 0x12], .jmpInd 0x1234), ([0x20, 0x34, 0x12], .jsr 0x1234),
  ([0x60], .rts)] := rfl

theorem test_decode_control_2 : DecodesTo [
  ([0x00], .brk), ([0x40], .rti)] := rfl

/-- 30_encoding R61: an illegal opcode is refused by name. -/
theorem test_decode_refuses_0x02 : decode [0x02, 0x10, 0x20] = .error (.illegalOpcode 0x02) := rfl

theorem test_decode_refuses_0xFF : decode [0xFF] = .error (.illegalOpcode 0xFF) := rfl

theorem test_decode_refuses_no_bytes : decode [] = .error .noBytes := rfl

theorem test_decode_refuses_a_missing_operand : decode [0xAD, 0x34] = .error (.truncated 0xAD) := rfl

theorem test_decode_leaves_the_rest : decode [0xA9, 0x10, 0xEA] = .ok (.ldaImm 0x10) [0xEA] := rfl

/-- The padding byte of a BRK is no part of it (48_control R193: table length 1). -/
theorem test_decode_brk_has_one_byte : decode [0x00, 0xEA] = .ok .brk [0xEA] := rfl

theorem test_encode_low_byte_first : encode (.ldaAbsx 0x1234) = [0xBD, 0x34, 0x12] := rfl

theorem test_table_word_of_three_bytes : decodeTableWord 24 0x1234BD = some (.ldaAbsx 0x1234) := rfl

theorem test_table_word_with_zero_operands : decodeTableWord 8 0xA9 = some (.ldaImm 0x00) := rfl

theorem test_table_word_refuses_illegal : decodeTableWord 8 0x02 = none := rfl

/-- E9 of 95_test_vectors. -/
theorem test_meta_lookup :
    metaOf 0xA9 = { mnemonic := "LDA", length := 2, cycles := 2, label := "immediate" } ∧
    metaOf 0x02 = { mnemonic := "", length := 0, cycles := 0, label := "" } := ⟨rfl, rfl⟩

/-! ### Single steps: vectors of 95_test_vectors (at most two for an instruction) -/

/-- The start of a vector: every field 0 but SP = 0xFF and PC; the code at PC and the named cells in memory. -/
def start (pc : Word) (code : List Byte) (cells : List (Word × Byte)) : State :=
  { State.reset with
    sp := 0xFF
    pc := pc
    mem := Memory.load [] (cells ++ code.mapIdx (fun k b => (pc + BitVec.ofNat 16 k, b))) }


/-- V2, R100. Old A irrelevant. -/
theorem test_v2_ldaImm :
    let s := { start 0x8000 [0xA9, 0x00] [] with a := 0x55, flags := { State.reset.flags with n := true } }
    step s = .next { s with a := 0x00, pc := 0x8002, flags := { s.flags with n := false, z := true } } := rfl

/-- V1, R100. -/
theorem test_v1_ldaImm :
    let s := start 0x8000 [0xA9, 0x80] []
    step s = .next { s with a := 0x80, pc := 0x8002, flags := { s.flags with n := true } } := rfl

/-- V3, R100. Zp,X wraps: EA=0x0010. -/
theorem test_v3_ldaZpx :
    let s := { start 0x8000 [0xB5, 0xF0] [(0x0010, 0x42)] with x := 0x20 }
    step s = .next { s with a := 0x42, pc := 0x8002 } := rfl

/-- V4, R100. Abs,X wraps: EA=0x0010. -/
theorem test_v4_ldaAbsx :
    let s := { start 0x8000 [0xBD, 0xF0, 0xFF] [(0x0010, 0x7E)] with x := 0x20 }
    step s = .next { s with a := 0x7E, pc := 0x8003 } := rfl

/-- V6, R100. (zp,X) pointer at 0x00FF/0x0000. -/
theorem test_v6_ldaIndx :
    let s := { start 0x8000 [0xA1, 0xFE] [(0x0000, 0x12), (0x00FF, 0x34), (0x1234, 0x01)] with x := 0x01 }
    step s = .next { s with a := 0x01, pc := 0x8002 } := rfl

/-- V5, R100. (zp),Y of §8: EA=0x8005. -/
theorem test_v5_ldaIndy :
    let s := { start 0x9000 [0xB1, 0x20] [(0x0020, 0x00), (0x0021, 0x80), (0x8005, 0x99)] with y := 0x05 }
    step s = .next { s with a := 0x99, pc := 0x9002, flags := { s.flags with n := true } } := rfl

/-- V8, R100. (zp),Y sum wraps at 64K: 0xFFF8+0x10=0x0008. -/
theorem test_v8_ldaIndy :
    let s := { start 0x8000 [0xB1, 0x40] [(0x0008, 0x0C), (0x0040, 0xF8), (0x0041, 0xFF)] with y := 0x10 }
    step s = .next { s with a := 0x0C, pc := 0x8002 } := rfl

/-- V9, R101. -/
theorem test_v9_ldxImm :
    let s := start 0x8000 [0xA2, 0x00] []
    step s = .next { s with pc := 0x8002, flags := { s.flags with z := true } } := rfl

/-- V10, R101. Zp,Y wraps. -/
theorem test_v10_ldxZpy :
    let s := { start 0x8000 [0xB6, 0xF0] [(0x0010, 0x81)] with y := 0x20 }
    step s = .next { s with x := 0x81, pc := 0x8002, flags := { s.flags with n := true } } := rfl

/-- V11, R102. -/
theorem test_v11_ldyImm :
    let s := start 0x8000 [0xA0, 0xFF] []
    step s = .next { s with y := 0xFF, pc := 0x8002, flags := { s.flags with n := true } } := rfl

/-- V12, R103. Flags unchanged. -/
theorem test_v12_staZp :
    let s := { start 0x8000 [0x85, 0x10] [] with a := 0x37, flags := { State.reset.flags with n := true, z := true } }
    step s = .next { s with pc := 0x8002, mem := s.mem.load [(0x0010, 0x37)] } := rfl

/-- V13, R103. -/
theorem test_v13_staIndy :
    let s := { start 0x8000 [0x91, 0x20] [(0x0020, 0x00), (0x0021, 0x02)] with a := 0xAB, y := 0x05 }
    step s = .next { s with pc := 0x8002, mem := s.mem.load [(0x0205, 0xAB)] } := rfl

/-- V14, R104. Zp,Y wraps. -/
theorem test_v14_stxZpy :
    let s := { start 0x8000 [0x96, 0x02] [] with x := 0x05, y := 0xFF }
    step s = .next { s with pc := 0x8002, mem := s.mem.load [(0x0001, 0x05)] } := rfl

/-- V15, R105. -/
theorem test_v15_styAbs :
    let s := { start 0x8000 [0x8C, 0x00, 0x02] [] with y := 0x99 }
    step s = .next { s with pc := 0x8003, mem := s.mem.load [(0x0200, 0x99)] } := rfl

/-- V16, R105. Zp,X wraps. -/
theorem test_v16_styZpx :
    let s := { start 0x8000 [0x94, 0x80] [] with x := 0x81, y := 0x11 }
    step s = .next { s with pc := 0x8002, mem := s.mem.load [(0x0001, 0x11)] } := rfl

/-- V24, R110. Overflow from carry-in. -/
theorem test_v24_adcImm :
    let s := { start 0x8000 [0x69, 0x00] [] with a := 0x7F, flags := { State.reset.flags with c := true } }
    step s = .next { s with a := 0x80, pc := 0x8002, flags := { s.flags with n := true, v := true, c := false } } := rfl

/-- V26, R110. D=1 ignored: binary result. -/
theorem test_v26_adcImm :
    let s := { start 0x8000 [0x69, 0x09] [] with a := 0x10, flags := { State.reset.flags with d := true } }
    step s = .next { s with a := 0x19, pc := 0x8002 } := rfl

/-- V29, R111. -/
theorem test_v29_sbcImm :
    let s := { start 0x8000 [0xE9, 0xFF] [] with a := 0x7F, flags := { State.reset.flags with c := true } }
    step s = .next { s with a := 0x80, pc := 0x8002, flags := { s.flags with n := true, v := true, c := false } } := rfl

/-- V34, R111. Borrow-in consumed. -/
theorem test_v34_sbcImm :
    let s := { start 0x8000 [0xE9, 0x03] [] with a := 0x05, flags := { State.reset.flags with c := false } }
    step s = .next { s with a := 0x01, pc := 0x8002, flags := { s.flags with c := true } } := rfl

/-- V36, R115. C unchanged. -/
theorem test_v36_incZp :
    let s := { start 0x8000 [0xE6, 0x10] [(0x0010, 0xFF)] with flags := { State.reset.flags with c := true } }
    step s = .next { s with
      pc := 0x8002, flags := { s.flags with z := true }, mem := s.mem.load [(0x0010, 0x00)] } := rfl

/-- V38, R115. Abs,X wraps to 0x0000. -/
theorem test_v38_incAbsx :
    let s := { start 0x8000 [0xFE, 0xFF, 0xFF] [(0x0000, 0x41)] with x := 0x01 }
    step s = .next { s with pc := 0x8003, mem := s.mem.load [(0x0000, 0x42)] } := rfl

/-- V39, R116. -/
theorem test_v39_decAbs :
    let s := start 0x8000 [0xCE, 0x00, 0x03] [(0x0300, 0x01)]
    step s = .next { s with
      pc := 0x8003, flags := { s.flags with z := true }, mem := s.mem.load [(0x0300, 0x00)] } := rfl

/-- V40, R116. -/
theorem test_v40_decZp :
    let s := start 0x8000 [0xC6, 0x10] [(0x0010, 0x00)]
    step s = .next { s with
      pc := 0x8002, flags := { s.flags with n := true }, mem := s.mem.load [(0x0010, 0xFF)] } := rfl

/-- V42, R117. -/
theorem test_v42_inx :
    let s := { start 0x8000 [0xE8] [] with x := 0xFF }
    step s = .next { s with x := 0x00, pc := 0x8001, flags := { s.flags with z := true } } := rfl

/-- V43, R117. -/
theorem test_v43_inx :
    let s := { start 0x8000 [0xE8] [] with x := 0x7F }
    step s = .next { s with x := 0x80, pc := 0x8001, flags := { s.flags with n := true } } := rfl

/-- V44, R118. -/
theorem test_v44_iny :
    let s := { start 0x8000 [0xC8] [] with y := 0x7F }
    step s = .next { s with y := 0x80, pc := 0x8001, flags := { s.flags with n := true } } := rfl

/-- V45, R119. -/
theorem test_v45_dex :
    let s := { start 0x8000 [0xCA] [] with x := 0x00 }
    step s = .next { s with x := 0xFF, pc := 0x8001, flags := { s.flags with n := true } } := rfl

/-- V46, R119. -/
theorem test_v46_dex :
    let s := { start 0x8000 [0xCA] [] with x := 0x01 }
    step s = .next { s with x := 0x00, pc := 0x8001, flags := { s.flags with z := true } } := rfl

/-- V47, R120. -/
theorem test_v47_dey :
    let s := { start 0x8000 [0x88] [] with y := 0x01 }
    step s = .next { s with y := 0x00, pc := 0x8001, flags := { s.flags with z := true } } := rfl

/-- V48, R125. -/
theorem test_v48_tax :
    let s := { start 0x8000 [0xAA] [] with a := 0x80 }
    step s = .next { s with x := 0x80, pc := 0x8001, flags := { s.flags with n := true } } := rfl

/-- V49, R126. -/
theorem test_v49_tay :
    let s := { start 0x8000 [0xA8] [] with a := 0x00, y := 0x33 }
    step s = .next { s with y := 0x00, pc := 0x8001, flags := { s.flags with z := true } } := rfl

/-- V50, R127. -/
theorem test_v50_txa :
    let s := { start 0x8000 [0x8A] [] with a := 0xFF, x := 0x7F, flags := { State.reset.flags with n := true } }
    step s = .next { s with a := 0x7F, pc := 0x8001, flags := { s.flags with n := false } } := rfl

/-- V51, R128. -/
theorem test_v51_tya :
    let s := { start 0x8000 [0x98] [] with y := 0xFE }
    step s = .next { s with a := 0xFE, pc := 0x8001, flags := { s.flags with n := true } } := rfl

/-- V52, R129. -/
theorem test_v52_tsx :
    let s := { start 0x8000 [0xBA] [] with sp := 0xFD }
    step s = .next { s with x := 0xFD, pc := 0x8001, flags := { s.flags with n := true } } := rfl

/-- V53, R129. -/
theorem test_v53_tsx :
    let s := { start 0x8000 [0xBA] [] with sp := 0x00 }
    step s = .next { s with pc := 0x8001, flags := { s.flags with z := true } } := rfl

/-- V54, R130. No flags written. -/
theorem test_v54_txs :
    let s := { start 0x8000 [0x9A] [] with x := 0x00, flags := { State.reset.flags with n := true, z := false } }
    step s = .next { s with sp := 0x00, pc := 0x8001 } := rfl

/-- V56, R135. C, V unchanged. -/
theorem test_v56_andImm :
    let s := { start 0x8000 [0x29, 0x00] [] with a := 0xFF, flags := { State.reset.flags with v := true, c := true } }
    step s = .next { s with a := 0x00, pc := 0x8002, flags := { s.flags with z := true } } := rfl

/-- V55, R135. -/
theorem test_v55_andImm :
    let s := { start 0x8000 [0x29, 0x3C] [] with a := 0xF0 }
    step s = .next { s with a := 0x30, pc := 0x8002 } := rfl

/-- V57, R136. -/
theorem test_v57_eorImm :
    let s := { start 0x8000 [0x49, 0x0F] [] with a := 0xFF }
    step s = .next { s with a := 0xF0, pc := 0x8002, flags := { s.flags with n := true } } := rfl

/-- V58, R136. -/
theorem test_v58_eorImm :
    let s := { start 0x8000 [0x49, 0x5A] [] with a := 0x5A }
    step s = .next { s with a := 0x00, pc := 0x8002, flags := { s.flags with z := true } } := rfl

/-- V59, R137. -/
theorem test_v59_oraImm :
    let s := { start 0x8000 [0x09, 0x80] [] with a := 0x01 }
    step s = .next { s with a := 0x81, pc := 0x8002, flags := { s.flags with n := true } } := rfl

/-- V60, R137. -/
theorem test_v60_oraImm :
    let s := { start 0x8000 [0x09, 0x00] [] with a := 0x00 }
    step s = .next { s with pc := 0x8002, flags := { s.flags with z := true } } := rfl

/-- V64, R139. D=0x71: N is not signed less-than. -/
theorem test_v64_cmpImm :
    let s := { start 0x8000 [0xC9, 0x90] [] with a := 0x01 }
    step s = .next { s with pc := 0x8002 } := rfl

/-- V65, R139. V unchanged, C not an input. -/
theorem test_v65_cmpImm :
    let s := { start 0x8000 [0xC9, 0x20] [] with a := 0x50, flags := { State.reset.flags with v := true, c := false } }
    step s = .next { s with pc := 0x8002, flags := { s.flags with c := true } } := rfl

/-- V66, R140. -/
theorem test_v66_cpxImm :
    let s := { start 0x8000 [0xE0, 0x0A] [] with x := 0x05 }
    step s = .next { s with pc := 0x8002, flags := { s.flags with n := true } } := rfl

/-- V67, R141. -/
theorem test_v67_cpyImm :
    let s := { start 0x8000 [0xC0, 0x05] [] with y := 0x0A }
    step s = .next { s with pc := 0x8002, flags := { s.flags with c := true } } := rfl

/-- V69, R142. -/
theorem test_v69_bitZp :
    let s := { start 0x8000 [0x24, 0x40] [(0x0040, 0xC0)] with a := 0x3F }
    step s = .next { s with pc := 0x8002, flags := { s.flags with n := true, v := true, z := true } } := rfl

/-- V70, R142. -/
theorem test_v70_bitAbs :
    let s := { start 0x8000 [0x2C, 0x34, 0x12] [(0x1234, 0x40)] with
      a := 0xFF, flags := { State.reset.flags with n := true } }
    step s = .next { s with pc := 0x8003, flags := { s.flags with n := false, v := true } } := rfl

/-- V74, R150. Old C not shifted in. -/
theorem test_v74_aslAcc :
    let s := { start 0x8000 [0x0A] [] with a := 0x40, flags := { State.reset.flags with c := true } }
    step s = .next { s with a := 0x80, pc := 0x8001, flags := { s.flags with n := true, c := false } } := rfl

/-- V72, R150. -/
theorem test_v72_aslAcc :
    let s := { start 0x8000 [0x0A] [] with a := 0x81 }
    step s = .next { s with a := 0x02, pc := 0x8001, flags := { s.flags with c := true } } := rfl

/-- V75, R151. -/
theorem test_v75_lsrZp :
    let s := start 0x8000 [0x46, 0x10] [(0x0010, 0x03)]
    step s = .next { s with
      pc := 0x8002, flags := { s.flags with c := true }, mem := s.mem.load [(0x0010, 0x01)] } := rfl

/-- V76, R151. -/
theorem test_v76_lsrAcc :
    let s := { start 0x8000 [0x4A] [] with a := 0x01, flags := { State.reset.flags with n := true } }
    step s = .next { s with a := 0x00, pc := 0x8001, flags := { s.flags with n := false, z := true, c := true } } := rfl

/-- V78, R152. §8 second ROL. -/
theorem test_v78_rolAcc :
    let s := { start 0x8000 [0x2A] [] with a := 0x01, flags := { State.reset.flags with c := true } }
    step s = .next { s with a := 0x03, pc := 0x8001, flags := { s.flags with c := false } } := rfl

/-- V79, R152. -/
theorem test_v79_rolAcc :
    let s := { start 0x8000 [0x2A] [] with a := 0x80, flags := { State.reset.flags with c := false } }
    step s = .next { s with a := 0x00, pc := 0x8001, flags := { s.flags with z := true, c := true } } := rfl

/-- V80, R152. Absolute ROL takes bit 7 (C5). -/
theorem test_v80_rolAbs :
    let s := { start 0x8000 [0x2E, 0x34, 0x12] [(0x1234, 0x80)] with flags := { State.reset.flags with c := false } }
    step s = .next { s with
      pc := 0x8003, flags := { s.flags with z := true, c := true }, mem := s.mem.load [(0x1234, 0x00)] } := rfl

/-- V82, R153. -/
theorem test_v82_rorAcc :
    let s := { start 0x8000 [0x6A] [] with a := 0x02, flags := { State.reset.flags with c := true } }
    step s = .next { s with a := 0x81, pc := 0x8001, flags := { s.flags with n := true, c := false } } := rfl

/-- V84, R153. Zp,X wraps. -/
theorem test_v84_rorZpx :
    let s := { start 0x8000 [0x76, 0xFF] [(0x0004, 0x01)] with
      x := 0x05, flags := { State.reset.flags with c := true } }
    step s = .next { s with
      pc := 0x8002, flags := { s.flags with n := true }, mem := s.mem.load [(0x0004, 0x80)] } := rfl

/-- V85, R160. -/
theorem test_v85_clc :
    let s := { start 0x8000 [0x18] [] with flags := { State.reset.flags with c := true } }
    step s = .next { s with pc := 0x8001, flags := { s.flags with c := false } } := rfl

/-- V86, R161. -/
theorem test_v86_cld :
    let s := { start 0x8000 [0xD8] [] with flags := { State.reset.flags with d := true } }
    step s = .next { s with pc := 0x8001, flags := { s.flags with d := false } } := rfl

/-- V87, R162. -/
theorem test_v87_cli :
    let s := { start 0x8000 [0x58] [] with flags := { State.reset.flags with i := true } }
    step s = .next { s with pc := 0x8001, flags := { s.flags with i := false } } := rfl

/-- V88, R163. -/
theorem test_v88_clv :
    let s := { start 0x8000 [0xB8] [] with flags := { State.reset.flags with v := true } }
    step s = .next { s with pc := 0x8001, flags := { s.flags with v := false } } := rfl

/-- V89, R164. -/
theorem test_v89_sec :
    let s := { start 0x8000 [0x38] [] with flags := { State.reset.flags with c := false } }
    step s = .next { s with pc := 0x8001, flags := { s.flags with c := true } } := rfl

/-- V90, R165. -/
theorem test_v90_sed :
    let s := { start 0x8000 [0xF8] [] with flags := { State.reset.flags with d := false } }
    step s = .next { s with pc := 0x8001, flags := { s.flags with d := true } } := rfl

/-- V91, R166. -/
theorem test_v91_sei :
    let s := { start 0x8000 [0x78] [] with flags := { State.reset.flags with i := false } }
    step s = .next { s with pc := 0x8001, flags := { s.flags with i := true } } := rfl

/-- V92, R167. -/
theorem test_v92_nop :
    let s := { start 0x8000 [0xEA] [] with a := 0x12, flags := { State.reset.flags with c := true } }
    step s = .next { s with pc := 0x8001 } := rfl

/-- V93, R171. -/
theorem test_v93_pha :
    let s := { start 0x8000 [0x48] [] with a := 0x42, sp := 0xFF }
    step s = .next { s with sp := 0xFE, pc := 0x8001, mem := s.mem.load [(0x01FF, 0x42)] } := rfl

/-- V94, R171. SP wraps. -/
theorem test_v94_pha :
    let s := { start 0x8000 [0x48] [] with a := 0x42, sp := 0x00 }
    step s = .next { s with sp := 0xFF, pc := 0x8001, mem := s.mem.load [(0x0100, 0x42)] } := rfl

/-- V95, R172. -/
theorem test_v95_php :
    let s := { start 0x8000 [0x08] [] with sp := 0xFD, flags := { State.reset.flags with z := true, c := true } }
    step s = .next { s with sp := 0xFC, pc := 0x8001, mem := s.mem.load [(0x01FD, 0x33)] } := rfl

/-- V97, R172. -/
theorem test_v97_php :
    let s := { start 0x8000 [0x08] [] with
      flags := { State.reset.flags with n := true, v := true, d := true, i := true, z := true, c := true } }
    step s = .next { s with sp := 0xFE, pc := 0x8001, mem := s.mem.load [(0x01FF, 0xFF)] } := rfl

/-- V98, R173. -/
theorem test_v98_pla :
    let s := { start 0x8000 [0x68] [(0x01FF, 0x80)] with sp := 0xFE }
    step s = .next { s with a := 0x80, sp := 0xFF, pc := 0x8001, flags := { s.flags with n := true } } := rfl

/-- V99, R173. SP wraps to 0x00, reads 0x0100. -/
theorem test_v99_pla :
    let s := { start 0x8000 [0x68] [(0x0100, 0x00)] with a := 0x10, sp := 0xFF }
    step s = .next { s with a := 0x00, sp := 0x00, pc := 0x8001, flags := { s.flags with z := true } } := rfl

/-- V100, R174. -/
theorem test_v100_plp :
    let s := { start 0x8000 [0x28] [(0x01FD, 0xC3)] with sp := 0xFC }
    step s = .next { s with
      sp := 0xFD, pc := 0x8001, flags := { s.flags with n := true, v := true, z := true, c := true } } := rfl

/-- V101, R174. Bits 5,4 discarded. -/
theorem test_v101_plp :
    let s := { start 0x8000 [0x28] [(0x01FD, 0x30)] with
      sp := 0xFC, flags := { State.reset.flags with n := true, c := true } }
    step s = .next { s with sp := 0xFD, pc := 0x8001, flags := { s.flags with n := false, c := false } } := rfl

/-- V102, R181. -/
theorem test_v102_bcc :
    let s := { start 0x8000 [0x90, 0x10] [] with flags := { State.reset.flags with c := false } }
    step s = .next { s with pc := 0x8012 } := rfl

/-- V103, R181. Not taken. -/
theorem test_v103_bcc :
    let s := { start 0x8000 [0x90, 0x10] [] with flags := { State.reset.flags with c := true } }
    step s = .next { s with pc := 0x8002 } := rfl

/-- V104, R182. Not taken. -/
theorem test_v104_bcs :
    let s := { start 0x8000 [0xB0, 0x10] [] with flags := { State.reset.flags with c := false } }
    step s = .next { s with pc := 0x8002 } := rfl

/-- V105, R182. Branch to itself. -/
theorem test_v105_bcs :
    let s := { start 0x8000 [0xB0, 0xFE] [] with flags := { State.reset.flags with c := true } }
    step s = .next { s with  } := rfl

/-- V106, R183. Displacement -128. -/
theorem test_v106_beq :
    let s := { start 0x8010 [0xF0, 0x80] [] with flags := { State.reset.flags with z := true } }
    step s = .next { s with pc := 0x7F92 } := rfl

/-- V107, R184. Target wraps past 0xFFFF. -/
theorem test_v107_bmi :
    let s := { start 0xFFF0 [0x30, 0x20] [] with flags := { State.reset.flags with n := true } }
    step s = .next { s with pc := 0x0012 } := rfl

/-- V108, R185. -/
theorem test_v108_bne :
    let s := { start 0x8005 [0xD0, 0xF9] [] with flags := { State.reset.flags with z := false } }
    step s = .next { s with pc := 0x8000 } := rfl

/-- V109, R185. Not taken. -/
theorem test_v109_bne :
    let s := { start 0x8005 [0xD0, 0xF9] [] with flags := { State.reset.flags with z := true } }
    step s = .next { s with pc := 0x8007 } := rfl

/-- V110, R186. Displacement 0. -/
theorem test_v110_bpl :
    let s := { start 0x8000 [0x10, 0x00] [] with flags := { State.reset.flags with n := false } }
    step s = .next { s with pc := 0x8002 } := rfl

/-- V111, R187. Displacement +127. -/
theorem test_v111_bvc :
    let s := { start 0x8000 [0x50, 0x7F] [] with flags := { State.reset.flags with v := false } }
    step s = .next { s with pc := 0x8081 } := rfl

/-- V112, R188. -/
theorem test_v112_bvs :
    let s := { start 0x8000 [0x70, 0xFE] [] with flags := { State.reset.flags with v := true } }
    step s = .next { s with  } := rfl

/-- V113, R188. Not taken. -/
theorem test_v113_bvs :
    let s := { start 0x8000 [0x70, 0xFE] [] with flags := { State.reset.flags with v := false } }
    step s = .next { s with pc := 0x8002 } := rfl

/-- V114, R189. -/
theorem test_v114_jmpAbs :
    let s := start 0x8000 [0x4C, 0x00, 0xC0] []
    step s = .next { s with pc := 0xC000 } := rfl

/-- V115, R190. -/
theorem test_v115_jmpInd :
    let s := start 0x8000 [0x6C, 0x20, 0x01] [(0x0120, 0x34), (0x0121, 0x12)]
    step s = .next { s with pc := 0x1234 } := rfl

/-- V116, R190. Page wrap of the pointer. -/
theorem test_v116_jmpInd :
    let s := start 0x8000 [0x6C, 0xFF, 0x02] [(0x0200, 0x90), (0x02FF, 0x00), (0x0300, 0x40)]
    step s = .next { s with pc := 0x9000 } := rfl

/-- V117, R191. -/
theorem test_v117_jsr :
    let s := { start 0x8000 [0x20, 0x00, 0x90] [] with sp := 0xFF }
    step s = .next { s with sp := 0xFD, pc := 0x9000, mem := s.mem.load [(0x01FE, 0x02), (0x01FF, 0x80)] } := rfl

/-- V118, R192. -/
theorem test_v118_rts :
    let s := { start 0x8000 [0x60] [(0x01FE, 0x02), (0x01FF, 0x80)] with sp := 0xFD }
    step s = .next { s with sp := 0xFF, pc := 0x8003 } := rfl

/-- V119, R192. Return address wraps. -/
theorem test_v119_rts :
    let s := { start 0x8000 [0x60] [(0x01FE, 0xFF), (0x01FF, 0xFF)] with sp := 0xFD }
    step s = .next { s with sp := 0xFF, pc := 0x0000 } := rfl

/-- V120, R193. -/
theorem test_v120_brk :
    let s := { start 0x8000 [0x00, 0xEA] [(0xFFFE, 0x00), (0xFFFF, 0xA0)] with sp := 0xFF }
    step s = .next { s with
      sp := 0xFC, pc := 0xA000, flags := { s.flags with i := true }, mem := s.mem.load [(0x01FD, 0x30), (0x01FE, 0x02), (0x01FF, 0x80)] } := rfl

/-- V121, R193. D not cleared; pushed P has D, C, bits 5,4. -/
theorem test_v121_brk :
    let s := { start 0x8000 [0x00, 0xEA] [(0xFFFE, 0x00), (0xFFFF, 0xA0)] with
      sp := 0xFF, flags := { State.reset.flags with d := true, c := true } }
    step s = .next { s with
      sp := 0xFC, pc := 0xA000, flags := { s.flags with i := true }, mem := s.mem.load [(0x01FD, 0x39), (0x01FE, 0x02), (0x01FF, 0x80)] } := rfl

/-- V122, R194. -/
theorem test_v122_rti :
    let s := { start 0x8000 [0x40] [(0x01FD, 0x30), (0x01FE, 0x02), (0x01FF, 0x80)] with
      sp := 0xFC, flags := { State.reset.flags with i := true, c := true } }
    step s = .next { s with sp := 0xFF, pc := 0x8002, flags := { s.flags with i := false, c := false } } := rfl

/-- V123, R194. No +1. -/
theorem test_v123_rti :
    let s := { start 0x8000 [0x40] [(0x01FD, 0xCF), (0x01FE, 0x34), (0x01FF, 0x12)] with sp := 0xFC }
    step s = .next { s with
      sp := 0xFF, pc := 0x1234, flags := { s.flags with n := true, v := true, d := true, i := true, z := true, c := true } } := rfl

/-- V124, R79: the faulted state differs in its `fault` field only. -/
theorem test_v124_illegal :
    let s := { start 0x8000 [0x02] [] with a := 0x12, flags := { State.reset.flags with c := true } }
    step s = .fault (.illegalOpcode 0x02 0x8000 { s with fault := some (.illegalOpcode 0x02 0x8000) }) := rfl

/-- V125, R79: the highest illegal byte. -/
theorem test_v125_illegal :
    let s := start 0x1234 [0xFF, 0x00, 0x00] []
    step s = .fault (.illegalOpcode 0xFF 0x1234 { s with fault := some (.illegalOpcode 0xFF 0x1234) }) := rfl

/-- 40_dispatch R78: no step from a final state. -/
theorem test_final_takes_no_step :
    step { start 0x8000 [0xEA] [] with haltPc := [0x8000] } = .fault (.noStepFinal 0x8000) := rfl

/-- 60_exceptions R200: no step from a faulted state. -/
theorem test_faulted_takes_no_step :
    step { start 0x8000 [0xEA] [] with fault := some (.illegalOpcode 0x02 0x9002) }
      = .fault (.noStepFaulted (.illegalOpcode 0x02 0x9002)) := rfl

/-- 40_dispatch R80: operand bytes are read modulo 65536, here `LDA $1234` at 0xFFFE. -/
theorem test_fetch_wraps_past_0xFFFF :
    let s := start 0xFFFE [0xAD, 0x34, 0x12] [(0x1234, 0x5A)]
    step s = .next { s with a := 0x5A, pc := 0x0001 } := rfl

/-! ### Reset, the host's entry points, and what stands beside the machine -/

/-- 70_reset R220–R225; PC is the model's choice (log 1). -/
theorem test_reset_registers : State.reset.a = 0x00 ∧ State.reset.sp = 0x00 ∧ State.reset.flags.toByte = 0x00 := by decide

/-- 70_reset R222: a later image byte overwrites an earlier one. -/
theorem test_image_later_byte_wins : (Memory.load [] [(0x8000, 0x01), (0x8000, 0x02)]).read 0x8000 = 0x02 := by decide

/-- A word placed where the next instruction is fetched is the instruction that runs. -/
theorem test_with_fetch_word_runs :
    (match step (State.reset.withFetchWord 16 0x80A9) with
      | .next t => t.a
      | .fault _ => 0x00
      | .refused _ => 0x00) = 0x80 := rfl

/-- 30_encoding R68: the example texts. -/
theorem test_assembly_text :
    assemblyText .inx 0x8000 = "INX" ∧ assemblyText .aslAcc 0x8000 = "ASL A" ∧
    assemblyText (.ldaImm 0x10) 0x8000 = "LDA #$10" ∧ assemblyText (.ldaAbsx 0x1234) 0x8000 = "LDA $1234,X" ∧
    assemblyText (.jmpInd 0x1234) 0x8000 = "JMP ($1234)" ∧ assemblyText (.ldaIndx 0x20) 0x8000 = "LDA ($20,X)" ∧
    assemblyText (.ldaIndy 0x20) 0x8000 = "LDA ($20),Y" := by decide

/-- P1 of 95_test_vectors: `BNE loop` at 0x800A names 0x8005. -/
theorem test_assembly_branch : assemblyText (.bne 0xF9) 0x800A = "BNE $8005" := by decide

/-- 70_reset R233: `LDA $12F0,X` with X = 0x20 crosses a page, `STA` takes its base count. -/
theorem test_cycles_page_crossing :
    let s := { State.reset with x := 0x20 }
    cycles (.ldaAbsx 0x12F0) s = 5 ∧ cycles (.ldaAbsx 0x1200) s = 4 ∧ cycles (.staAbsx 0x12F0) s = 5 := by decide

/-- 70_reset R234. -/
theorem test_cycles_branch :
    let s := { State.reset with pc := 0x8002 }
    cycles (.bcc 0x10) s = 3 ∧ cycles (.bcc 0x80) s = 4 ∧ cycles (.bcs 0x10) s = 2 := by decide

/-- 20_memory R48. -/
theorem test_address_map :
    regionUse 0x07FF = some .internalRam ∧ regionUse 0x0800 = some .ramMirror ∧ regionUse 0x4020 = some .cartridge := by decide

/-! ### Witnesses: for each obligation with hypotheses, a state and operands that meet them together -/

/-- A state whose registers, flags and memory are all different from reset. -/
def busy : State :=
  { start 0x8000 [0xA9, 0x10, 0x20] [(0x0020, 0x7F), (0x0021, 0x12), (0xFFFE, 0x00), (0xFFFF, 0xA0)] with
    a := 0x80
    x := 0xFF
    y := 0x01
    flags := { n := true, v := false, d := true, i := false, z := false, c := true } }

theorem witness_StepKeepsInvariant :
    busy.Inv ∧ step busy = .next { busy with a := 0x10, pc := 0x8002, flags := { busy.flags with n := false } } :=
  ⟨⟨by decide, rfl⟩, rfl⟩

/-- Two orders of the same two writes. -/
theorem witness_CanonicalMemoryIsDeterminedByItsReads :
    let m := Memory.write (Memory.write [] 0x0000 0x11) 0xFFFF 0x22
    let m' := Memory.write (Memory.write [] 0xFFFF 0x22) 0x0000 0x11
    m.wf = true ∧ m'.wf = true ∧ ∀ addr : Word, m.read addr.toNat = m'.read addr.toNat :=
  ⟨by decide, by decide, fun _ => rfl⟩

theorem witness_DecodedBytesAreTheEncoding : decode [0xAD, 0x34, 0x12, 0xEA] = .ok (.ldaAbs 0x1234) [0xEA] := rfl

theorem witness_IllegalBytesAreTheListedOnes :
    (0x02 : Byte) ∈ illegalBytes ∧ (0xFF : Byte) ∈ illegalBytes ∧ (0x00 : Byte) ∉ illegalBytes ∧
    (0xFE : Byte) ∉ illegalBytes := by decide

theorem witness_StepRunsTheDecodedInstruction :
    busy.fault = none ∧ busy.pc ∉ busy.haltPc ∧
    decode [busy.read busy.pc, busy.read (busy.pc + 1), busy.read (busy.pc + 2)] = .ok (.ldaImm 0x10) [0x20] :=
  ⟨rfl, by decide, rfl⟩

/-- At the top of memory: a three-byte instruction whose operand bytes come from 0x0000 and 0x0001. -/
theorem witness_StepRunsTheDecodedInstruction_at_0xFFFF :
    let s := start 0xFFFF [0x4C, 0x34, 0x12] []
    s.fault = none ∧ s.pc ∉ s.haltPc ∧
    decode [s.read s.pc, s.read (s.pc + 1), s.read (s.pc + 2)] = .ok (.jmpAbs 0x1234) [] :=
  ⟨rfl, by decide, rfl⟩

theorem witness_IllegalOpcodeFaultsPrecisely :
    let s := start 0xFFFF [0x02] []
    s.fault = none ∧ s.pc ∉ s.haltPc ∧ (metaOf (s.read s.pc)).length = 0 := ⟨rfl, by decide, rfl⟩

/-- The three clauses: a faulted state, a final one, and a state at an illegal opcode. -/
theorem witness_FaultedAndFinalStatesTakeNoStep :
    ({ busy with fault := some (.illegalOpcode 0x02 0x8000) } : State).fault = some (.illegalOpcode 0x02 0x8000) ∧
    (({ busy with haltPc := [0x9000, 0x8000] } : State).fault = none ∧
      ({ busy with haltPc := [0x9000, 0x8000] } : State).pc ∈ ({ busy with haltPc := [0x9000, 0x8000] } : State).haltPc) ∧
    step (start 0x8000 [0x02] []) = .fault (.illegalOpcode 0x02 0x8000
      { start 0x8000 [0x02] [] with fault := some (.illegalOpcode 0x02 0x8000) }) := ⟨rfl, ⟨rfl, by decide⟩, rfl⟩

/-- Both sides of the equivalence are met: a state that steps and one that does not. -/
theorem witness_OnlyIllegalOpcodesStopARunningMachine :
    (busy.fault = none ∧ busy.pc ∉ busy.haltPc ∧ busy.read busy.pc ∉ illegalBytes) ∧
    (start 0x8000 [0xFF] []).read 0x8000 ∈ illegalBytes := by decide

theorem witness_LoadsTakeTheOperandAndSetNZ :
    (Instr.ldaIndy 0xFF).mnemonic = .lda ∧ (Instr.ldxZpy 0xFF).mnemonic = .ldx ∧ (Instr.ldyAbsx 0xFFFF).mnemonic = .ldy :=
  ⟨rfl, rfl, rfl⟩

theorem witness_StoresWriteOneCell :
    (Instr.staIndx 0xFF).mnemonic = .sta ∧ (Instr.stxZpy 0xFF).mnemonic = .stx ∧ (Instr.styAbs 0xFFFF).mnemonic = .sty :=
  ⟨rfl, rfl, rfl⟩

theorem witness_AdcAddsWithCarry : (Instr.adcAbsy 0xFFFF).mnemonic = .adc := rfl

theorem witness_SbcSubtractsWithBorrow : (Instr.sbcIndy 0xFF).mnemonic = .sbc := rfl

theorem witness_OverflowIsSignedOverflow :
    (Instr.adcImm 0x7F).mnemonic = .adc ∧ (Instr.sbcImm 0x80).mnemonic = .sbc := ⟨rfl, rfl⟩

theorem witness_SbcIsAdcOfTheComplement : (Instr.sbcZpx 0xFF).mnemonic = .sbc := rfl

theorem witness_DecimalFlagDoesNotReachAdcAndSbc :
    (Instr.adcImm 0x09).mnemonic = .adc ∧ (Instr.sbcImm 0x01).mnemonic = .sbc := ⟨rfl, rfl⟩

theorem witness_IncAndDecRewriteOneCell :
    (Instr.incAbsx 0xFFFF).mnemonic = .inc ∧ (Instr.decZpx 0xFF).mnemonic = .dec := ⟨rfl, rfl⟩

theorem witness_LogicCombinesAWithTheOperand :
    (Instr.andImm 0x00).mnemonic = .and ∧ (Instr.eorIndx 0xFF).mnemonic = .eor ∧ (Instr.oraAbs 0x0000).mnemonic = .ora :=
  ⟨rfl, rfl, rfl⟩

/-- The register of each compare, here at 0x80, 0xFF and 0x01. -/
theorem witness_ComparesSetFlagsOnly :
    ((Instr.cmpImm 0x80).mnemonic = .cmp ∧ (0x80 : Byte) = busy.a) ∧
    ((Instr.cpxImm 0x00).mnemonic = .cpx ∧ (0xFF : Byte) = busy.x) ∧
    ((Instr.cpyAbs 0xFFFF).mnemonic = .cpy ∧ (0x01 : Byte) = busy.y) := by decide

theorem witness_BitTestsMemoryAgainstA : (Instr.bitAbs 0x2002).mnemonic = .bit := rfl

theorem witness_ShiftsRewriteTheirOperand_accumulator : 128 = busy.a.toNat ∧ 1 = busy.flags.c.toNat := by decide

theorem witness_ShiftsRewriteTheirOperand_memory :
    ((Instr.aslZp 0x20).mnemonic ∈ shifts ∧ (Instr.aslZp 0x20).form = .data (.mem (.zp 0x20))) ∧
    ((Instr.lsrAbs 0xFFFF).mnemonic ∈ shifts ∧ (Instr.lsrAbs 0xFFFF).form = .data (.mem (.abs 0xFFFF))) ∧
    ((Instr.rolAbsx 0x0000).mnemonic ∈ shifts ∧ (Instr.rolAbsx 0x0000).form = .data (.mem (.absx 0x0000))) ∧
    ((Instr.rorZpx 0xFF).mnemonic ∈ shifts ∧ (Instr.rorZpx 0xFF).form = .data (.mem (.zpx 0xFF))) := by decide

theorem witness_NineRotatesRestore :
    (Instr.rolAcc = .rolAcc ∨ Instr.rolAcc = .rorAcc) ∧ (Instr.rorAcc = .rolAcc ∨ Instr.rorAcc = .rorAcc) :=
  ⟨.inl rfl, .inr rfl⟩

/-- At both ends of page 1. -/
theorem witness_PushesWriteOneStackCell :
    (0x0100 : Word).toNat = 0x0100 + ({ busy with sp := 0x00 } : State).sp.toNat ∧
    (0x01FF : Word).toNat = 0x0100 + busy.sp.toNat := by decide

/-- At both ends of page 1; with SP = 0xFF the byte pulled is at 0x0100. -/
theorem witness_PullsTakeTheByteAboveSp :
    (0x0100 : Word).toNat = 0x0100 + (busy.sp.toNat + 1) % 256 ∧
    (0x01FF : Word).toNat = 0x0100 + (({ busy with sp := 0xFE } : State).sp.toNat + 1) % 256 := by decide

/-- What runs between the push and the pull may change other registers and cells. -/
theorem witness_PullUndoesPush :
    ∃ t t' : State, exec .php busy = .next t ∧ t'.sp = t.sp ∧ t'.read (stackAddr busy.sp) = t.read (stackAddr busy.sp) ∧
      t'.a ≠ t.a ∧ t'.flags ≠ t.flags :=
  ⟨_, { busy with sp := 0xFE, a := 0x00, flags := State.reset.flags, mem := [(0x01FF, 0xB9)] }, rfl, by decide⟩

theorem witness_PullUndoesPush_pha :
    ∃ u u' : State, exec .pha busy = .next u ∧ u'.sp = u.sp ∧ u'.read (stackAddr busy.sp) = u.read (stackAddr busy.sp) ∧
      u'.a ≠ u.a :=
  ⟨_, { busy with sp := 0xFE, a := 0x00, mem := [(0x01FF, 0x80)] }, rfl, by decide⟩

/-- The extreme displacements, and a target past 0xFFFF. -/
theorem witness_BranchesMovePcWhenTaken :
    (0x7F80 : Word) = BitVec.ofInt 16 ((busy.pc.toNat : Int) + (0x80 : Byte).toInt) ∧
    (0x807F : Word) = BitVec.ofInt 16 ((busy.pc.toNat : Int) + (0x7F : Byte).toInt) ∧
    (0x0012 : Word) = BitVec.ofInt 16 (((0xFFF2 : Word).toNat : Int) + (0x20 : Byte).toInt) := by decide

/-- Inside a page, and at its end (V116 of 95_test_vectors). -/
theorem witness_JumpsGoToTheirTarget :
    (0x0121 : Word).toNat = ((0x0120 : Word) &&& 0xFF00).toNat + ((0x0120 : Word).toNat + 1) % 256 ∧
    (0x0200 : Word).toNat = ((0x02FF : Word) &&& 0xFF00).toNat + ((0x02FF : Word).toNat + 1) % 256 := by decide

/-- A subroutine that changes A and memory below the saved bytes. -/
theorem witness_RtsReturnsAfterTheCall :
    ∃ t u : State, exec (.jsr 0x9000) busy = .next t ∧ u.sp = t.sp ∧ u.read (stackAddr busy.sp) = t.read (stackAddr busy.sp) ∧
      u.read (stackAddr (busy.sp - 1)) = t.read (stackAddr (busy.sp - 1)) ∧ u.a ≠ t.a ∧ u.pc ≠ t.pc :=
  ⟨_, { busy with sp := 0xFD, a := 0x00, pc := 0x9009, mem := [(0x01FE, 0xFF), (0x01FF, 0x7F)] }, rfl, by decide⟩

theorem witness_RtiRestoresFlagsAndPc : (0x00 : Byte) = busy.read (stackAddr (busy.sp + 1)) := by decide

/-- A handler that changes A and other cells. -/
theorem witness_RtiReturnsFromTheHandler :
    ∃ t u : State, exec .brk busy = .next t ∧ u.sp = t.sp ∧ u.read (stackAddr busy.sp) = t.read (stackAddr busy.sp) ∧
      u.read (stackAddr (busy.sp - 1)) = t.read (stackAddr (busy.sp - 1)) ∧
      u.read (stackAddr (busy.sp - 2)) = t.read (stackAddr (busy.sp - 2)) ∧ u.a ≠ t.a ∧ u.flags ≠ t.flags :=
  ⟨_, { busy with
    sp := 0xFC, a := 0x00, flags := State.reset.flags, mem := [(0x01FD, 0xB9), (0x01FE, 0x01), (0x01FF, 0x80)] }, rfl,
    by decide⟩

/-- A BRK at 0x8000, the vector at 0xA000, a BRK there; the range of `n` at both ends. -/
theorem witness_NestedBrksFillTheStackPage :
    let s := start 0x8000 [0x00] [(0xFFFE, 0x00), (0xFFFF, 0xA0)]
    s.fault = none ∧ s.pc ∉ s.haltPc ∧ 0xA000 ∉ s.haltPc ∧ s.read s.pc = 0x00 ∧ 0xA000 = s.read16 brkVector ∧
    s.read 0xA000 = 0x00 ∧ (0xA000 : Word).toNat / 256 ≠ 1 ∧ (1 ≤ 1 ∧ 1 ≤ 85) ∧ (1 ≤ 85 ∧ 85 ≤ 85) := by decide

/-- The first BRK may stand in page 1, on the cell its first push overwrites, and the handler just above that page. -/
theorem witness_NestedBrksFillTheStackPage_first_in_page_1 :
    let s := start 0x01FF [0x00] [(0xFFFE, 0x00), (0xFFFF, 0x02)]
    s.fault = none ∧ s.pc ∉ s.haltPc ∧ 0x0200 ∉ s.haltPc ∧ s.read s.pc = 0x00 ∧ 0x0200 = s.read16 brkVector ∧
    s.read 0x0200 = 0x00 ∧ (0x0200 : Word).toNat / 256 ≠ 1 := by decide

theorem witness_BrkLoopsThroughAZeroVector :
    State.reset.fault = none ∧ 0x0000 ∉ State.reset.haltPc ∧ State.reset.pc = 0x0000 ∧ State.reset.read 0x0000 = 0x00 ∧
    State.reset.read 0xFFFE = 0x00 ∧ State.reset.read 0xFFFF = 0x00 ∧ 1 ≤ 3 := by decide

/-- The accumulator form of ASL with A = 0x7F beside its zero-page form on a cell that holds 0x7F. -/
theorem witness_FlagsDoNotDependOnTheMode :
    let s := { busy with a := 0x7F }
    (Instr.aslAcc).mnemonic = (Instr.aslZp 0x20).mnemonic ∧
    (Instr.aslAcc).mnemonic ∉ [Mnemonic.sta, .stx, .sty, .jmp, .jsr] ∧
    (Instr.aslAcc).form = .data .acc ∧ (Instr.aslZp 0x20).form = .data (.mem (.zp 0x20)) ∧
    readOperand .acc s = readOperand (.mem (.zp 0x20)) s := by decide

/-- Neither operand in A: `ADC #$7F` beside `ADC $20`. -/
theorem witness_FlagsDoNotDependOnTheMode_memory :
    (Instr.adcImm 0x7F).mnemonic = (Instr.adcZp 0x20).mnemonic ∧
    (Instr.adcImm 0x7F).mnemonic ∉ [Mnemonic.sta, .stx, .sty, .jmp, .jsr] ∧
    (Instr.adcImm 0x7F).form = .data (.imm 0x7F) ∧ (Instr.adcZp 0x20).form = .data (.mem (.zp 0x20)) ∧
    readOperand (.imm 0x7F) busy = readOperand (.mem (.zp 0x20)) busy := by decide

/-- INC writes none of the four registers. -/
theorem witness_RegistersChangeOnlyByTheirWriters :
    (Instr.incZp 0x20).mnemonic ∉ writersOfA ∧
    ¬((Instr.incZp 0x20).mnemonic ∈ shifts ∧ (Instr.incZp 0x20).form = .data .acc) ∧
    (Instr.incZp 0x20).mnemonic ∉ writersOfX ∧ (Instr.incZp 0x20).mnemonic ∉ writersOfY ∧
    (Instr.incZp 0x20).mnemonic ∉ writersOfSp := by decide

theorem witness_FlagsChangeOnlyByTheirWriters : ∀ f : Flag, (Instr.staZp 0x20).mnemonic ∉ writersOfFlag f := by
  intro f; cases f <;> decide

theorem witness_OnlyControlTransfersMovePc : (Instr.plp).mnemonic ∉ controlTransfers := by decide

/-- The first clause: a load, and an accumulator shift. -/
theorem witness_OnlyStoresChangeMemory :
    ((Instr.ldaZp 0x20).mnemonic ∉ writersOfMemory ∧ (Instr.ldaZp 0x20).mnemonic ∉ shifts) ∧
    ((Instr.aslAcc).mnemonic ∉ writersOfMemory ∧ (Instr.aslAcc).form = .data .acc) := by decide

/-- The second clause: each push, and addresses on both sides of page 1. -/
theorem witness_OnlyStoresChangeMemory_pushes :
    (Instr.pha).mnemonic ∈ [Mnemonic.pha, .php, .jsr, .brk] ∧ (Instr.php).mnemonic ∈ [Mnemonic.pha, .php, .jsr, .brk] ∧
    (Instr.jsr 0x9000).mnemonic ∈ [Mnemonic.pha, .php, .jsr, .brk] ∧
    (Instr.brk).mnemonic ∈ [Mnemonic.pha, .php, .jsr, .brk] ∧
    (0x00FF : Word).toNat / 256 ≠ 1 ∧ (0x0200 : Word).toNat / 256 ≠ 1 := by decide

theorem witness_InterruptAndDecimalFlagsGateNothing :
    (Flag.d = .i ∨ Flag.d = .d) ∧ (Instr.adcImm 0x09).mnemonic ≠ .php ∧ (Instr.adcImm 0x09).mnemonic ≠ .brk := by decide

/-- `STA $8003` at 0x8000 with a NOP in A. -/
theorem witness_StoredOpcodeIsFetchedNext :
    let s := { start 0x8000 [0x8D, 0x03, 0x80] [] with a := 0xEA }
    s.fault = none ∧ s.pc ∉ s.haltPc ∧ s.pc + 3 ∉ s.haltPc ∧ s.a = 0xEA ∧ s.read s.pc = 0x8D ∧
    s.read (s.pc + 1) = lowByte (s.pc + 3) ∧ s.read (s.pc + 2) = highByte (s.pc + 3) := by decide

/-- `STA $8000` at 0x8000. -/
theorem witness_SelfOverwritingStoreRunsAsFetched :
    let s := start 0x8000 [0x8D, 0x00, 0x80] []
    s.fault = none ∧ s.pc ∉ s.haltPc ∧ s.read s.pc = 0x8D ∧ s.read (s.pc + 1) = lowByte s.pc ∧
    s.read (s.pc + 2) = highByte s.pc := by decide

/-- `CLC; ADC $1234` at 0x8000. -/
theorem witness_IdiomsDoWhatTheyAreUsedFor_add :
    let s := { start 0x8000 [0x18, 0x6D, 0x34, 0x12] [] with haltPc := [0x8004] }
    RunningAt s [0, 1] ∧ s.read s.pc = 0x18 ∧
    (Instr.adcAbs 0x1234).mnemonic = .adc ∧
    decode [s.read (s.pc + 1), s.read (s.pc + 2), s.read (s.pc + 3)] = .ok (.adcAbs 0x1234) [] :=
  ⟨⟨rfl, by decide⟩, by decide, rfl, rfl⟩

/-- `SEC; SBC #$FF` at 0xFFFE, the operand byte at 0x0000. -/
theorem witness_IdiomsDoWhatTheyAreUsedFor_subtract :
    let s := start 0xFFFE [0x38, 0xE9, 0xFF] []
    RunningAt s [0, 1] ∧ s.read s.pc = 0x38 ∧
    (Instr.sbcImm 0xFF).mnemonic = .sbc ∧
    decode [s.read (s.pc + 1), s.read (s.pc + 2), s.read (s.pc + 3)] = .ok (.sbcImm 0xFF) [0x00] :=
  ⟨⟨rfl, by decide⟩, by decide, rfl, rfl⟩

theorem witness_IdiomsDoWhatTheyAreUsedFor_negate :
    let s := start 0x8000 [0x49, 0xFF, 0x18, 0x69, 0x01] []
    RunningAt s [0, 2, 3] ∧
    bytesAtPc s 5 = [0x49, 0xFF, 0x18, 0x69, 0x01] := ⟨⟨rfl, by decide⟩, by decide⟩

/-- The most negative displacement, with the branch itself at 0x0000. -/
theorem witness_IdiomsDoWhatTheyAreUsedFor_branch :
    let s := start 0xFFFF [0xB8, 0x50, 0x80] []
    RunningAt s [0, 1] ∧ bytesAtPc s 3 = [0xB8, 0x50, 0x80] :=
  ⟨⟨rfl, by decide⟩, by decide⟩

/-- Within the page of 0x8000, and out of it. -/
theorem witness_BranchCycles :
    3 = (if busy.pc.toNat / 256 = (BitVec.ofInt 16 ((busy.pc.toNat : Int) + (0x7F : Byte).toInt)).toNat / 256
      then 3 else 4) ∧
    4 = (if busy.pc.toNat / 256 = (BitVec.ofInt 16 ((busy.pc.toNat : Int) + (0xFF : Byte).toInt)).toNat / 256
      then 3 else 4) := by decide

theorem witness_PageCrossingCycles :
    ((Instr.ldaAbsx 0x12F0).form = .data (.mem (.absx 0x12F0)) ∧ (Instr.ldaAbsx 0x12F0).mode = .absx) ∧
    ((Instr.staAbsy 0x12FF).form = .data (.mem (.absy 0x12FF)) ∧ (Instr.staAbsy 0x12FF).mode = .absy) ∧
    ((Instr.adcIndy 0x20).form = .data (.mem (.indy 0x20)) ∧ (Instr.adcIndy 0x20).mode = .indy) := by decide

/-- Both ends of a row of the map. -/
theorem witness_AddressMapIsNotEnforced :
    let r : Region := ⟨0x2000, 0x2007, .ppuRegisters⟩
    r ∈ addressMap ∧ r.first ≤ (0x2000 : Word).toNat ∧ (0x2007 : Word).toNat ≤ r.last := by decide

end Sys2Proof.Tests
end

section
/-! PROOF. Word reads (00_scope R9, R13): a pair of bytes as a number, the two bytes of a word as numbers, and the address of
the second byte with the wrap of each kind of read. -/

namespace Sys2Proof.Machine

/-- R9's `lo + 256*hi`. -/
@[simp] theorem word_toNat (lo hi : Byte) : (word lo hi).toNat = lo.toNat + 256 * hi.toNat := by
  have hlo : lo.toNat < 2 ^ 8 := lo.isLt
  rw [word, BitVec.toNat_append, ← Nat.shiftLeft_add_eq_or_of_lt hlo, Nat.shiftLeft_eq]
  omega

@[simp] theorem lowByte_toNat (w : Word) : (lowByte w).toNat = w.toNat % 256 := by
  simp [lowByte]

@[simp] theorem highByte_toNat (w : Word) : (highByte w).toNat = w.toNat / 256 := by
  have hw : w.toNat < 65536 := w.isLt
  rw [highByte, BitVec.extractLsb'_toNat, Nat.shiftRight_eq_div_pow]
  omega

/-- Zero extension keeps the value (R10). -/
theorem zext16_eq_ofNat (z : Byte) : zext16 z = BitVec.ofNat 16 z.toNat := (BitVec.ofNat_toNat 16 z).symm

/-- The address after `addr`, modulo 65536: where `Read16` finds its high byte. -/
theorem addr_succ_eq_ofNat (addr : Word) : addr + 1 = BitVec.ofNat 16 ((addr.toNat + 1) % 65536) := by
  apply BitVec.eq_of_toNat_eq
  simp

/-- The zero-page address after `z`, modulo 256: where `ZpRead16` finds its high byte. -/
theorem zext16_succ_eq_ofNat (z : Byte) : zext16 (z + 1) = BitVec.ofNat 16 ((z.toNat + 1) % 256) := by
  rw [zext16_eq_ofNat, BitVec.toNat_add]
  rfl

theorem State.read16_toNat (s : State) (addr : Word) :
    (s.read16 addr).toNat =
      (s.read addr).toNat + 256 * (s.read (BitVec.ofNat 16 ((addr.toNat + 1) % 65536))).toNat := by
  rw [State.read16, word_toNat, addr_succ_eq_ofNat]

theorem State.zpRead16_toNat (s : State) (z : Byte) :
    (s.zpRead16 z).toNat =
      (s.read (BitVec.ofNat 16 z.toNat)).toNat + 256 * (s.read (BitVec.ofNat 16 ((z.toNat + 1) % 256))).toNat := by
  rw [State.zpRead16, word_toNat, zext16_succ_eq_ofNat, zext16_eq_ofNat]

/-- Settles O15: each read is a pair of bytes, whose second address is the successor modulo its own size. -/
theorem wordReadsAreLittleEndian : Obligations.WordReadsAreLittleEndian := fun s addr z =>
  ⟨s.read16_toNat addr, s.zpRead16_toNat z, lowByte_toNat addr, highByte_toNat addr⟩

end Sys2Proof.Machine
end

section
/-! PROOF. What an instruction leaves unchanged (10_state R21–R36): one frame for all 151, built from the writes of the shared
operations, each by an instruction that 10_state names as a writer of that field. -/

namespace Sys2Proof.Machine

open Sys2Proof.Claims

/-- What an instruction of mnemonic `m` and operand form `f` that goes from `s` to `t` leaves unchanged: every field `m` is no
named writer of, the canonical form of memory, the fault record and HALT_PC. -/
structure Frame (m : Mnemonic) (f : Form) (s t : State) : Prop where
  a : m ∉ writersOfA → ¬(m ∈ shifts ∧ f = .data .acc) → t.a = s.a
  x : m ∉ writersOfX → t.x = s.x
  y : m ∉ writersOfY → t.y = s.y
  sp : m ∉ writersOfSp → t.sp = s.sp
  pc : m ∉ controlTransfers → t.pc = s.pc
  flag : ∀ g, m ∉ writersOfFlag g → t.flag g = s.flag g
  mem : m ∉ writersOfMemory → (m ∈ shifts → f = .data .acc) → t.mem = s.mem
  wf : s.mem.wf = true → t.mem.wf = true
  fault : t.fault = s.fault
  haltPc : t.haltPc = s.haltPc

namespace Frame

variable {m : Mnemonic} {f : Form} {s t : State}

/-! ### One write, by an instruction named as a writer

That a mnemonic is a named writer is a membership in a written-out list, so the premises below default to `decide`. -/

theorem refl : Frame m f s s where
  a _ _ := rfl
  x _ := rfl
  y _ := rfl
  sp _ := rfl
  pc _ := rfl
  flag _ _ := rfl
  mem _ _ := rfl
  wf := id
  fault := rfl
  haltPc := rfl

theorem setA (k : Frame m f s t) {v : Byte} (h : m ∈ writersOfA ∨ m ∈ shifts ∧ f = .data .acc) :
    Frame m f s (t.setA v) :=
  { k with a := fun hw hs => (h.elim hw hs).elim }

theorem setX (k : Frame m f s t) {v : Byte} (h : m ∈ writersOfX := by decide) : Frame m f s (t.setX v) :=
  { k with x := fun hw => absurd h hw }

theorem setY (k : Frame m f s t) {v : Byte} (h : m ∈ writersOfY := by decide) : Frame m f s (t.setY v) :=
  { k with y := fun hw => absurd h hw }

theorem setSp (k : Frame m f s t) {v : Byte} (h : m ∈ writersOfSp := by decide) : Frame m f s (t.setSp v) :=
  { k with sp := fun hw => absurd h hw }

theorem setPc (k : Frame m f s t) {w : Word} (h : m ∈ controlTransfers := by decide) : Frame m f s (t.setPc w) :=
  { k with pc := fun hw => absurd h hw }

theorem setFlags (k : Frame m f s t) {p : Flags} (h : ∀ g, m ∉ writersOfFlag g → p.get g = t.flag g) :
    Frame m f s (t.setFlags p) :=
  { k with flag := fun g hw => (h g hw).trans (k.flag g hw) }

theorem setFlag (k : Frame m f s t) {g : Flag} {b : Bool} (h : m ∈ writersOfFlag g := by decide) :
    Frame m f s (t.setFlag g b) :=
  k.setFlags fun g' hw => by
    have hne : g' ≠ g := fun heq => hw (heq ▸ h)
    rw [Flags.get_set, if_neg hne, State.flag]

theorem write (k : Frame m f s t) {addr : Word} {v : Byte}
    (h : m ∈ writersOfMemory ∨ m ∈ shifts ∧ f ≠ .data .acc) : Frame m f s (t.write addr v) :=
  { k with
    mem := fun hw hs => (h.elim hw fun ⟨hm, hne⟩ => hne (hs hm)).elim
    wf := fun hs => State.wf_write (k.wf hs) addr v }

/-! ### The shared operations -/

theorem setNZ (k : Frame m f s t) {r : Byte} (h : m ∈ settersOfNZ := by decide) : Frame m f s (t.setNZ r) :=
  (k.setFlag (g := .z) (List.mem_append_left _ h)).setFlag (g := .n) (List.mem_append_left _ h)

/-- LDA, the logical operations, TXA, TYA and PLA: A takes a value, and N and Z follow it. -/
theorem loadA (k : Frame m f s t) {v : Byte} (ha : m ∈ writersOfA := by decide)
    (hnz : m ∈ settersOfNZ := by decide) : Frame m f s ((t.setA v).setNZ v) :=
  (k.setA (.inl ha)).setNZ hnz

theorem takeAlu {r : AluResult} (ha : m ∈ writersOfA := by decide) (hv : m ∈ writersOfFlag .v := by decide)
    (hc : m ∈ writersOfFlag .c := by decide) (hnz : m ∈ settersOfNZ := by decide) : Frame m f s (s.takeAlu r) :=
  ((refl.setFlag hc).setFlag hv).loadA ha hnz

theorem compare {reg v : Byte} (hc : m ∈ writersOfFlag .c := by decide) (hnz : m ∈ settersOfNZ := by decide) :
    Frame m f s (s.compare reg v) :=
  (refl.setNZ hnz).setFlag hc

/-- A shift writes its place, and A only when A is its place. -/
theorem shiftPlace {op : Byte → Bool → ShiftResult} {p : Place} (hf : f = .data p.operand)
    (hm : m ∈ shifts := by decide) (hc : m ∈ writersOfFlag .c := by decide)
    (hnz : m ∈ settersOfNZ := by decide) : Frame m f s (shiftPlace op p s) := by
  cases p with
  | acc => exact ((refl.setFlag hc).setA (.inr ⟨hm, hf⟩)).setNZ hnz
  | mem =>
    have hne : f ≠ .data .acc := by rw [hf]; nofun
    exact ((refl.setFlag hc).write (.inr ⟨hm, hne⟩)).setNZ hnz

theorem push (k : Frame m f s t) {v : Byte} (hw : m ∈ writersOfMemory := by decide)
    (hsp : m ∈ writersOfSp := by decide) : Frame m f s (t.push v) :=
  (k.write (.inl hw)).setSp hsp

theorem branch {cond : Bool} {d : Byte} (h : m ∈ controlTransfers := by decide) :
    Frame m f s (branch cond d s) := by
  obtain ⟨-, hb⟩ | ⟨-, hb⟩ := branch_cases cond d s
  · rw [hb]; exact refl.setPc h
  · rw [hb]; exact refl

/-- The flags of a pulled byte: PLP and RTI are writers of all six. -/
theorem pullFlags (k : Frame m f s t) {p : Flags} (hm : m = .plp ∨ m = .rti := by decide) :
    Frame m f s (t.setFlags p) :=
  k.setFlags fun g hw => absurd (by obtain rfl | rfl := hm <;> cases g <;> decide) hw

end Frame

/-- Every instruction completes in every state, and changes only what it is a named writer of: by mnemonic, the writes of its
shared operation in order. -/
theorem exec_frame (i : Instr) (s : State) : ∃ t, exec i s = .next t ∧ Frame i.mnemonic i.form s t := by
  cases hm : i.mnemonic with
  | lda => obtain ⟨_, _, he⟩ := exec_of_lda hm s; exact ⟨_, he, Frame.refl.loadA⟩
  | ldx => obtain ⟨_, _, he⟩ := exec_of_ldx hm s; exact ⟨_, he, Frame.refl.setX.setNZ⟩
  | ldy => obtain ⟨_, _, he⟩ := exec_of_ldy hm s; exact ⟨_, he, Frame.refl.setY.setNZ⟩
  | sta => obtain ⟨_, _, he⟩ := exec_of_sta hm s; exact ⟨_, he, Frame.refl.write (.inl (by decide))⟩
  | stx => obtain ⟨_, _, he⟩ := exec_of_stx hm s; exact ⟨_, he, Frame.refl.write (.inl (by decide))⟩
  | sty => obtain ⟨_, _, he⟩ := exec_of_sty hm s; exact ⟨_, he, Frame.refl.write (.inl (by decide))⟩
  | adc => obtain ⟨_, _, he⟩ := exec_of_adc hm s; exact ⟨_, he, .takeAlu⟩
  | sbc => obtain ⟨_, _, he⟩ := exec_of_sbc hm s; exact ⟨_, he, .takeAlu⟩
  | inc => obtain ⟨_, _, he⟩ := exec_of_inc hm s; exact ⟨_, he, (Frame.refl.write (.inl (by decide))).setNZ⟩
  | dec => obtain ⟨_, _, he⟩ := exec_of_dec hm s; exact ⟨_, he, (Frame.refl.write (.inl (by decide))).setNZ⟩
  | inx => obtain rfl := exec_of_inx hm; exact ⟨_, rfl, Frame.refl.setX.setNZ⟩
  | iny => obtain rfl := exec_of_iny hm; exact ⟨_, rfl, Frame.refl.setY.setNZ⟩
  | dex => obtain rfl := exec_of_dex hm; exact ⟨_, rfl, Frame.refl.setX.setNZ⟩
  | dey => obtain rfl := exec_of_dey hm; exact ⟨_, rfl, Frame.refl.setY.setNZ⟩
  | tax => obtain rfl := exec_of_tax hm; exact ⟨_, rfl, Frame.refl.setX.setNZ⟩
  | tay => obtain rfl := exec_of_tay hm; exact ⟨_, rfl, Frame.refl.setY.setNZ⟩
  | txa => obtain rfl := exec_of_txa hm; exact ⟨_, rfl, Frame.refl.loadA⟩
  | tya => obtain rfl := exec_of_tya hm; exact ⟨_, rfl, Frame.refl.loadA⟩
  | tsx => obtain rfl := exec_of_tsx hm; exact ⟨_, rfl, Frame.refl.setX.setNZ⟩
  | txs => obtain rfl := exec_of_txs hm; exact ⟨_, rfl, Frame.refl.setSp⟩
  | and => obtain ⟨_, _, he⟩ := exec_of_and hm s; exact ⟨_, he, Frame.refl.loadA⟩
  | eor => obtain ⟨_, _, he⟩ := exec_of_eor hm s; exact ⟨_, he, Frame.refl.loadA⟩
  | ora => obtain ⟨_, _, he⟩ := exec_of_ora hm s; exact ⟨_, he, Frame.refl.loadA⟩
  | cmp => obtain ⟨_, _, he⟩ := exec_of_cmp hm s; exact ⟨_, he, .compare⟩
  | cpx => obtain ⟨_, _, he⟩ := exec_of_cpx hm s; exact ⟨_, he, .compare⟩
  | cpy => obtain ⟨_, _, he⟩ := exec_of_cpy hm s; exact ⟨_, he, .compare⟩
  | bit => obtain ⟨_, _, he⟩ := exec_of_bit hm s; exact ⟨_, he, Frame.refl.setFlag.setFlag.setFlag⟩
  | asl => obtain ⟨_, hf, he⟩ := exec_of_asl hm s; exact ⟨_, he, .shiftPlace hf⟩
  | lsr => obtain ⟨_, hf, he⟩ := exec_of_lsr hm s; exact ⟨_, he, .shiftPlace hf⟩
  | rol => obtain ⟨_, hf, he⟩ := exec_of_rol hm s; exact ⟨_, he, .shiftPlace hf⟩
  | ror => obtain ⟨_, hf, he⟩ := exec_of_ror hm s; exact ⟨_, he, .shiftPlace hf⟩
  | clc => obtain rfl := exec_of_clc hm; exact ⟨_, rfl, Frame.refl.setFlag⟩
  | cld => obtain rfl := exec_of_cld hm; exact ⟨_, rfl, Frame.refl.setFlag⟩
  | cli => obtain rfl := exec_of_cli hm; exact ⟨_, rfl, Frame.refl.setFlag⟩
  | clv => obtain rfl := exec_of_clv hm; exact ⟨_, rfl, Frame.refl.setFlag⟩
  | sec => obtain rfl := exec_of_sec hm; exact ⟨_, rfl, Frame.refl.setFlag⟩
  | sed => obtain rfl := exec_of_sed hm; exact ⟨_, rfl, Frame.refl.setFlag⟩
  | sei => obtain rfl := exec_of_sei hm; exact ⟨_, rfl, Frame.refl.setFlag⟩
  | nop => obtain rfl := exec_of_nop hm; exact ⟨_, rfl, .refl⟩
  | pha => obtain rfl := exec_of_pha hm; exact ⟨_, rfl, Frame.refl.push⟩
  | php => obtain rfl := exec_of_php hm; exact ⟨_, rfl, Frame.refl.push⟩
  | pla => obtain rfl := exec_of_pla hm; exact ⟨_, rfl, Frame.refl.setSp.loadA⟩
  | plp => obtain rfl := exec_of_plp hm; exact ⟨_, rfl, Frame.refl.setSp.pullFlags⟩
  | bcc => obtain ⟨_, rfl⟩ := exec_of_bcc hm; exact ⟨_, rfl, .branch⟩
  | bcs => obtain ⟨_, rfl⟩ := exec_of_bcs hm; exact ⟨_, rfl, .branch⟩
  | beq => obtain ⟨_, rfl⟩ := exec_of_beq hm; exact ⟨_, rfl, .branch⟩
  | bmi => obtain ⟨_, rfl⟩ := exec_of_bmi hm; exact ⟨_, rfl, .branch⟩
  | bne => obtain ⟨_, rfl⟩ := exec_of_bne hm; exact ⟨_, rfl, .branch⟩
  | bpl => obtain ⟨_, rfl⟩ := exec_of_bpl hm; exact ⟨_, rfl, .branch⟩
  | bvc => obtain ⟨_, rfl⟩ := exec_of_bvc hm; exact ⟨_, rfl, .branch⟩
  | bvs => obtain ⟨_, rfl⟩ := exec_of_bvs hm; exact ⟨_, rfl, .branch⟩
  | jmp => obtain ⟨_, rfl⟩ | ⟨_, rfl⟩ := exec_of_jmp hm <;> exact ⟨_, rfl, Frame.refl.setPc⟩
  | jsr => obtain ⟨_, rfl⟩ := exec_of_jsr hm; exact ⟨_, rfl, Frame.refl.push.push.setPc⟩
  | rts => obtain rfl := exec_of_rts hm; exact ⟨_, rfl, Frame.refl.setSp.setSp.setPc⟩
  | brk => obtain rfl := exec_of_brk hm; exact ⟨_, rfl, Frame.refl.push.push.push.setFlag.setPc⟩
  | rti => obtain rfl := exec_of_rti hm; exact ⟨_, rfl, Frame.refl.setSp.pullFlags.setSp.setSp.setPc⟩

/-- Settles O3: the fetch moves PC only, and the instruction it fetched keeps the frame. -/
theorem stepKeepsInvariant : Obligations.StepKeepsInvariant := by
  intro s t hinv hstep
  obtain ⟨hfault, -, i, next, -, hexec⟩ := step_next hstep
  obtain ⟨u, hu, frame⟩ := exec_frame i (s.setPc next)
  obtain rfl : u = t := Host.Outcome.next.inj (hu.symm.trans hexec)
  exact ⟨⟨frame.wf hinv.1, frame.fault.trans hfault⟩, frame.haltPc⟩

/-- Settles O47: the register clauses of the frame. -/
theorem registersChangeOnlyByTheirWriters : Obligations.RegistersChangeOnlyByTheirWriters := by
  intro i s
  obtain ⟨t, ht, frame⟩ := exec_frame i s
  exact ⟨t, ht, frame.a, frame.x, frame.y, frame.sp, frame.fault, frame.haltPc⟩

/-- Settles O48: the flag clause of the frame. -/
theorem flagsChangeOnlyByTheirWriters : Obligations.FlagsChangeOnlyByTheirWriters := by
  intro i s f hw
  obtain ⟨t, ht, frame⟩ := exec_frame i s
  exact ⟨t, ht, frame.flag f hw⟩

/-- Settles O49: the PC clause of the frame. -/
theorem onlyControlTransfersMovePc : Obligations.OnlyControlTransfersMovePc := by
  intro i s hw
  obtain ⟨t, ht, frame⟩ := exec_frame i s
  exact ⟨t, ht, frame.pc hw⟩

/-- Settles O2: a launch loads its image over empty memory, and the loader keeps the canonical form. -/
theorem invariantHoldsAtEveryLaunch : Obligations.InvariantHoldsAtEveryLaunch :=
  ⟨⟨Memory.wf_reset, rfl⟩, fun l => ⟨Memory.wf_load Memory.wf_reset l.image, rfl⟩⟩

end Sys2Proof.Machine
end

section
/-! PROOF. The flags as bits of the status byte (10_state R26, R35), and the two flags that gate nothing (R31, R32). -/

namespace Sys2Proof.Machine

open Sys2Proof.Claims

theorem Flags.toByte_toNat (p : Flags) : p.toByte.toNat =
    128 * p.n.toNat + 64 * p.v.toNat + 8 * p.d.toNat + 4 * p.i.toNat + 2 * p.z.toNat + p.c.toNat := by
  obtain ⟨n, v, d, i, z, c⟩ := p
  revert n v d i z c
  decide

/-- Bits 5 and 4 of `P` are zero, so setting them adds their weights. -/
theorem Flags.pushed_toNat (p : Flags) : p.pushed.toNat = p.toByte.toNat + 48 := by
  obtain ⟨n, v, d, i, z, c⟩ := p
  revert n v d i z c
  decide

theorem Flags.ofByte_pushed (p : Flags) : Flags.ofByte p.pushed = p := by
  obtain ⟨n, v, d, i, z, c⟩ := p
  revert n v d i z c
  decide

theorem Flags.pushed_ofByte (v : Byte) : (Flags.ofByte v).pushed = v ||| 0x30 := by
  apply BitVec.eq_of_getLsbD_eq
  intro k hk
  have bits : k = 0 ∨ k = 1 ∨ k = 2 ∨ k = 3 ∨ k = 4 ∨ k = 5 ∨ k = 6 ∨ k = 7 := by omega
  simp only [Flags.pushed, Flags.toByte, Flags.ofByte, BitVec.getLsbD_or, BitVec.getLsbD_append]
  obtain rfl | rfl | rfl | rfl | rfl | rfl | rfl | rfl := bits <;> simp

/-- Settles O16: the six places and the two pushed bits by weight, the pull after a push and the push after a pull. -/
theorem statusByteLayout : Obligations.StatusByteLayout :=
  ⟨fun p => ⟨p.toByte_toNat, p.pushed_toNat, p.ofByte_pushed⟩, Flags.pushed_ofByte⟩

theorem branch_setFlag (cond : Bool) (d : Byte) (s : State) (f : Flag) (b : Bool) :
    branch cond d (s.setFlag f b) = (branch cond d s).setFlag f b := by
  cases cond <;> rfl

/-- Settles O51: no meaning but those of PHP and BRK looks at I or D, so the state it answers from `s.setFlag f b` computes to
the one it answers from `s`, with the flag overwritten by a writer and carried along by every other instruction. A branch
computes once its condition, another flag, is known. -/
theorem interruptAndDecimalFlagsGateNothing : Obligations.InterruptAndDecimalFlagsGateNothing := by
  intro i s f b hf hphp hbrk
  cases i
  case php => exact absurd rfl hphp
  case brk => exact absurd rfl hbrk
  case bcc d | bcs d | beq d | bmi d | bne d | bpl d | bvc d | bvs d =>
    obtain rfl | rfl := hf <;> exact ⟨_, rfl, congrArg Host.Outcome.next (branch_setFlag _ d s _ b)⟩
  all_goals obtain rfl | rfl := hf <;> exact ⟨_, rfl, rfl⟩

end Sys2Proof.Machine
end

section
/-! PROOF. The canonical form of memory (20_memory R40, R42): the addresses that read as something other than the unlisted
byte are the listed ones, so the reads determine the list. -/

namespace Sys2Proof.Machine

/-- Below the address a canonical list starts from, every cell reads as unlisted. -/
theorem Memory.le_of_read_ne_unlisted {lo addr : Nat} {m : Memory} (hm : m.wfFrom lo = true)
    (h : m.read addr ≠ Config.unlistedByte) : lo ≤ addr := by
  induction m generalizing lo with
  | nil => exact absurd rfl h
  | cons cell m ih =>
    obtain ⟨k, v⟩ := cell
    obtain ⟨hlo, -, -, htail⟩ := (Memory.wfFrom_cons ..).1 hm
    rw [Memory.read_cons] at h
    split at h
    · omega
    · have := ih htail h
      omega

/-- The tails of two lists with the same head that read alike read alike: at the head's address neither lists anything. -/
theorem Memory.read_tail_congr {k : Nat} {v : Byte} {m m' : Memory} (hm : m.wfFrom (k + 1) = true)
    (hm' : m'.wfFrom (k + 1) = true) {addr : Nat}
    (h : Memory.read ((k, v) :: m) addr = Memory.read ((k, v) :: m') addr) : m.read addr = m'.read addr := by
  rw [Memory.read_cons, Memory.read_cons] at h
  split at h
  · next hk =>
    have unlisted : ∀ {l : Memory}, l.wfFrom (k + 1) = true → l.read addr = Config.unlistedByte := fun hl =>
      Decidable.byContradiction fun hne => by
        have := Memory.le_of_read_ne_unlisted hl hne
        omega
    rw [unlisted hm, unlisted hm']
  · exact h

/-- Two lists, each canonical from an address of its own, that read alike are equal: neither head can lie below the other, so
the heads agree, and the tails read alike in turn. -/
theorem Memory.ext_of_wfFrom {lo lo' : Nat} {m m' : Memory} (hm : m.wfFrom lo = true) (hm' : m'.wfFrom lo' = true)
    (h : ∀ addr < 65536, m.read addr = m'.read addr) : m = m' := by
  induction m generalizing lo lo' m' with
  | nil =>
    cases m' with
    | nil => rfl
    | cons cell' m' =>
      obtain ⟨-, hk', hv', -⟩ := (Memory.wfFrom_cons ..).1 hm'
      exact absurd (by simpa [Memory.read] using (h _ hk').symm) hv'
  | cons cell m ih =>
    obtain ⟨k, v⟩ := cell
    obtain ⟨-, hk, hv, htail⟩ := (Memory.wfFrom_cons ..).1 hm
    cases m' with
    | nil => exact absurd (by simpa [Memory.read] using h _ hk) hv
    | cons cell' m' =>
      obtain ⟨k', v'⟩ := cell'
      obtain ⟨-, hk', hv', htail'⟩ := (Memory.wfFrom_cons ..).1 hm'
      have listed : Memory.read ((k, v) :: m) k = v := by simp [Memory.read]
      have listed' : Memory.read ((k', v') :: m') k' = v' := by simp [Memory.read]
      have le : k' ≤ k := Memory.le_of_read_ne_unlisted (m := (k', v') :: m')
        ((Memory.wfFrom_cons ..).2 ⟨Nat.le_refl _, hk', hv', htail'⟩) (by rwa [← h k hk, listed])
      have ge : k ≤ k' := Memory.le_of_read_ne_unlisted (m := (k, v) :: m)
        ((Memory.wfFrom_cons ..).2 ⟨Nat.le_refl _, hk, hv, htail⟩) (by rwa [h k' hk', listed'])
      obtain rfl : k = k' := Nat.le_antisymm ge le
      obtain rfl : v = v' := listed.symm.trans ((h k hk).trans listed')
      rw [ih htail htail' fun addr ha => Memory.read_tail_congr htail htail' (h addr ha)]

/-- Settles O4: a canonical list holds addresses below 65536 only, and each of them is the value of a word. -/
theorem canonicalMemoryIsDeterminedByItsReads : Obligations.CanonicalMemoryIsDeterminedByItsReads := by
  intro m m' hm hm' h
  exact Memory.ext_of_wfFrom hm hm' fun addr ha => by
    simpa [Nat.mod_eq_of_lt ha] using h (BitVec.ofNat 16 addr)

end Sys2Proof.Machine
end

section
/-! PROOF. What a step answers in each kind of state (40_dispatch R75, R77–R79; 60_exceptions R200), and how the bytes at PC fix
what it executes (R80, R81). -/

namespace Sys2Proof.Machine

open Sys2Proof.Claims

/-- The table and the list of 30_encoding R62 share the 256 bytes between them. Stated on naturals, where a comparison is
cheap to evaluate. -/
theorem opcode_mem_table_iff_not_illegal : ∀ op : Byte,
    op.toNat ∈ opcodeTable.map (fun r => r.opcode.toNat) ↔ op.toNat ∉ illegalBytes.map BitVec.toNat := by decide

/-- The bytes without a row are the 105 of 30_encoding R62. -/
theorem rowOf_eq_none_iff (op : Byte) : rowOf op = none ↔ op ∈ illegalBytes := by
  have split := opcode_mem_table_iff_not_illegal op
  simp only [List.mem_map, BitVec.toNat_inj, exists_eq_right] at split
  rw [rowOf, List.find?_eq_none]
  constructor
  · intro hnone
    refine Decidable.byContradiction fun hlegal => ?_
    obtain ⟨r, hr, hop⟩ := split.2 hlegal
    exact hnone r hr (beq_iff_eq.2 hop)
  · intro hillegal r hr hop
    exact split.1 ⟨r, hr, beq_iff_eq.1 hop⟩ hillegal

theorem fetch_eq_none_iff_illegal (s : State) : fetch s = none ↔ s.read s.pc ∈ illegalBytes :=
  (fetch_none_iff s).trans (rowOf_eq_none_iff _)

theorem step_of_faulted {s : State} {cause : Cause} (hf : s.fault = some cause) :
    step s = .fault (.noStepFaulted cause) := by
  simp [step, hf]

theorem step_of_final {s : State} (hf : s.fault = none) (hp : s.pc ∈ s.haltPc) :
    step s = .fault (.noStepFinal s.pc) := by
  simp [step, hf, (isFinal_iff s).2 ⟨hf, hp⟩]

theorem step_of_illegal {s : State} (hf : s.fault = none) (hp : s.pc ∉ s.haltPc) (h : s.read s.pc ∈ illegalBytes) :
    step s = .fault (illegalOpcodeFault s) := by
  rw [step_running hf hp, (fetch_eq_none_iff_illegal s).2 h]

/-- Execution completes, so a running state with a defined opcode steps. -/
theorem step_of_defined {s : State} (hf : s.fault = none) (hp : s.pc ∉ s.haltPc) (h : s.read s.pc ∉ illegalBytes) :
    ∃ t, step s = .next t := by
  rw [step_running hf hp]
  cases hfetch : fetch s with
  | none => exact absurd ((fetch_eq_none_iff_illegal s).1 hfetch) h
  | some fetched =>
    obtain ⟨t, ht, -⟩ := exec_frame fetched.1 (s.setPc fetched.2)
    exact ⟨t, ht⟩

/-- A step answers a next state or a fault, and which one is a matter of the fault record, HALT_PC and the opcode byte. -/
theorem step_next_or_fault (s : State) :
    (s.fault = none ∧ s.pc ∉ s.haltPc ∧ s.read s.pc ∉ illegalBytes) ∧ (∃ t, step s = .next t) ∨
    ¬(s.fault = none ∧ s.pc ∉ s.haltPc ∧ s.read s.pc ∉ illegalBytes) ∧ ∃ f, step s = .fault f := by
  cases hf : s.fault with
  | some cause => exact .inr ⟨fun ⟨hnone, _⟩ => (nomatch hnone), _, step_of_faulted hf⟩
  | none =>
    by_cases hp : s.pc ∈ s.haltPc
    · exact .inr ⟨fun ⟨_, hnot, _⟩ => hnot hp, _, step_of_final hf hp⟩
    by_cases hop : s.read s.pc ∈ illegalBytes
    · exact .inr ⟨fun ⟨_, _, hnot⟩ => hnot hop, _, step_of_illegal hf hp hop⟩
    · exact .inl ⟨⟨rfl, hp, hop⟩, step_of_defined hf hp hop⟩

/-- Settles O13: `exec` completes by the frame of all instructions, and the cases of a step exclude each other. -/
theorem onlyIllegalOpcodesStopARunningMachine : Obligations.OnlyIllegalOpcodesStopARunningMachine := by
  refine ⟨fun i s => (exec_frame i s).imp fun _ h => h.1, fun s => ?_, fun s r hr => ?_⟩
  · obtain ⟨hrun, hnext⟩ | ⟨hstop, f, hfault⟩ := step_next_or_fault s
    · exact iff_of_true hnext hrun
    · exact iff_of_false (fun ⟨t, ht⟩ => nomatch hfault.symm.trans ht) hstop
  · obtain ⟨-, t, ht⟩ | ⟨-, f, hf⟩ := step_next_or_fault s
    · exact nomatch ht.symm.trans hr
    · exact nomatch hf.symm.trans hr

theorem bytesAtPc_one (s : State) : bytesAtPc s 1 = [s.read s.pc] := by
  simp [bytesAtPc]

theorem bytesAtPc_three (s : State) : bytesAtPc s 3 = [s.read s.pc, s.read (s.pc + 1), s.read (s.pc + 2)] := by
  simp [bytesAtPc, List.range_succ]

/-- The operand bytes a fetch reads are those of the bytes at PC; past the instruction's length it takes 0 (R77). -/
theorem operandByte_of_bytesAtPc {s : State} {bytes : List Byte} (h : bytesAtPc s bytes.length = bytes) (k : Nat) :
    operandByte s bytes.length k = bytes.getD k 0x00 := by
  have listed : operandByte s bytes.length k = (bytesAtPc s bytes.length).getD k 0x00 := by
    by_cases hk : k < bytes.length <;> simp [operandByte, bytesAtPc, hk]
  rw [listed, h]

/-- A running state whose bytes at PC are an instruction's encoding executes it, PC past those bytes (R77, R80, R81). -/
theorem step_of_encoding {s : State} {i : Instr} (row : Laws.TableRow.Statement i) (hf : s.fault = none)
    (hp : s.pc ∉ s.haltPc) (h : bytesAtPc s (encode i).length = encode i) :
    step s = exec i (s.setPc (s.pc + BitVec.ofNat 16 (encode i).length)) := by
  obtain ⟨r, hrow, -, -, hlength, hmake⟩ := row
  have hopcode : s.read s.pc = i.opcode := by
    have := congrArg (·.getD 0 0x00) h
    simpa [bytesAtPc, encode] using this
  have hfetch := fetch_eq s (hopcode ▸ hrow)
  rw [hlength, operandByte_of_bytesAtPc h, operandByte_of_bytesAtPc h] at hfetch
  rw [step_running hf hp, hfetch]
  exact congrArg (exec · _) hmake

end Sys2Proof.Machine
end

section
/-! PROOF. Who writes memory, and where (20_memory R42, R46, R54; 47_stack R170): pushes stay in page 1, and a byte STA absolute
stores is what the next read or fetch of that cell finds, whatever the address. -/

namespace Sys2Proof.Machine

open Sys2Proof.Claims

/-! ### Pushes -/

theorem ne_stackAddr {b : Word} (hb : b.toNat / 256 ≠ 1) (sp : Byte) : b ≠ stackAddr sp := by
  rintro rfl
  have := stackAddr_toNat sp
  have := sp.isLt
  omega

/-- The four instructions that push write no cell outside page 1. -/
theorem exec_push_outside_stack {i : Instr} {s t : State} (hm : i.mnemonic ∈ [Mnemonic.pha, .php, .jsr, .brk])
    (ht : exec i s = .next t) {b : Word} (hb : b.toNat / 256 ≠ 1) : t.read b = s.read b := by
  have outside := ne_stackAddr hb
  simp only [List.mem_cons, List.not_mem_nil, or_false] at hm
  obtain hm | hm | hm | hm := hm
  · obtain rfl := exec_of_pha hm
    obtain rfl := Host.Outcome.next.inj ht
    simp [State.read_push, outside]
  · obtain rfl := exec_of_php hm
    obtain rfl := Host.Outcome.next.inj ht
    simp [State.read_push, outside]
  · obtain ⟨w, rfl⟩ := exec_of_jsr hm
    obtain rfl := Host.Outcome.next.inj ht
    simp [callSub, State.read_pushWord, outside]
  · obtain rfl := exec_of_brk hm
    obtain rfl := Host.Outcome.next.inj ht
    simp [State.read_enterTrap, outside]

/-- Settles O50: the memory clause of the frame, and the page of the pushes. -/
theorem onlyStoresChangeMemory : Obligations.OnlyStoresChangeMemory := by
  intro i s
  obtain ⟨t, ht, frame⟩ := exec_frame i s
  exact ⟨t, ht, frame.mem, fun hm _ hb => exec_push_outside_stack hm ht hb⟩

/-! ### STA absolute -/

/-- The step of an STA absolute at PC: PC moves past its three bytes, and the cell it names takes A. -/
theorem step_staAbs {s : State} {w : Word} (hf : s.fault = none) (hp : s.pc ∉ s.haltPc) (h0 : s.read s.pc = 0x8D)
    (h1 : s.read (s.pc + 1) = lowByte w) (h2 : s.read (s.pc + 2) = highByte w) :
    step s = .next ((s.setPc (s.pc + 3)).write w s.a) := by
  have bytes : bytesAtPc s 3 = encode (.staAbs w) := by
    rw [bytesAtPc_three, h0, h1, h2]
    rfl
  exact step_of_encoding (Laws.TableRow.staAbs w) hf hp bytes

/-- The step of a NOP at PC: PC moves on by 1. -/
theorem step_nop {s : State} (hf : s.fault = none) (hp : s.pc ∉ s.haltPc) (h0 : s.read s.pc = 0xEA) :
    step s = .next (s.setPc (s.pc + 1)) := by
  have bytes : bytesAtPc s 1 = encode .nop := by
    rw [bytesAtPc_one, h0]
    rfl
  exact step_of_encoding Laws.TableRow.nop hf hp bytes

/-- Settles O52: the step of the STA, then the step of the NOP read back where it was stored. -/
theorem storedOpcodeIsFetchedNext : Obligations.StoredOpcodeIsFetchedNext := by
  intro s hf hp hp3 ha h0 h1 h2
  refine ⟨_, step_staAbs hf hp h0 h1 h2, rfl, ?_⟩
  have hnop : ((s.setPc (s.pc + 3)).write (s.pc + 3) s.a).read (s.pc + 3) = 0xEA := by
    rw [State.read_write_same, ha]
  have hpc : s.pc + 3 + 1 = s.pc + 4 := BitVec.add_assoc ..
  rw [step_nop (s := (s.setPc (s.pc + 3)).write (s.pc + 3) s.a) hf hp3 hnop, State.write_pc, State.setPc_pc, hpc]
  rfl

/-- Settles O53: the three bytes are fetched before the store, so the step is that of the STA they held. -/
theorem selfOverwritingStoreRunsAsFetched : Obligations.SelfOverwritingStoreRunsAsFetched := by
  intro s hf hp h0 h1 h2
  exact ⟨_, step_staAbs hf hp h0 h1 h2, rfl, State.read_write_same .., fun _ hb => State.read_write_ne _ _ _ hb⟩

/-! ### The address map -/

/-- The ranges of 20_memory R48 leave no address out. -/
theorem addressMap_covers (addr : Word) : ∃ r ∈ addressMap, r.first ≤ addr.toNat ∧ addr.toNat ≤ r.last := by
  have := addr.isLt
  simp only [addressMap, List.mem_cons, List.not_mem_nil, or_false, exists_eq_or_imp, exists_eq_left]
  omega

/-- The ranges of 20_memory R48 do not meet. -/
theorem addressMap_disjoint :
    ∀ r ∈ addressMap, ∀ r' ∈ addressMap, r = r' ∨ r.last < r'.first ∨ r'.last < r.first := by decide

/-- The use of an address is that of any range it lies in. -/
theorem regionUse_of_mem {addr : Word} {r : Region} (hr : r ∈ addressMap) (hfirst : r.first ≤ addr.toNat)
    (hlast : addr.toNat ≤ r.last) : regionUse addr = some r.use := by
  unfold regionUse
  cases hfind : addressMap.find? (fun r => decide (r.first ≤ addr.toNat) && decide (addr.toNat ≤ r.last)) with
  | none => exact absurd (List.find?_eq_none.1 hfind r hr) (by simp [hfirst, hlast])
  | some r' =>
    have hr' := List.mem_of_find?_eq_some hfind
    obtain ⟨hfirst', hlast'⟩ : r'.first ≤ addr.toNat ∧ addr.toNat ≤ r'.last := by simpa using List.find?_some hfind
    obtain rfl : r = r' := (addressMap_disjoint r hr r' hr').resolve_right (by omega)
    rfl

/-- Settles O57: the ranges cover the addresses and do not meet, and a store reads no map. -/
theorem addressMapIsNotEnforced : Obligations.AddressMapIsNotEnforced := by
  refine ⟨fun addr => ?_, fun s addr => ?_⟩
  · obtain ⟨r, hr, hfirst, hlast⟩ := addressMap_covers addr
    have huse := regionUse_of_mem hr hfirst hlast
    exact ⟨r.use, huse, fun r' hr' hfirst' hlast' =>
      Option.some.inj ((regionUse_of_mem hr' hfirst' hlast').symm.trans huse)⟩
  · exact ⟨s.write addr s.a, s.write 0x0800 s.a, rfl, State.read_write_same .., rfl,
      State.read_write_ne _ _ _ (by decide)⟩

end Sys2Proof.Machine
end

section
/-! PROOF. The decoder and the encoder are inverse (30_encoding R55–R64): the row of an opcode byte makes its instruction from
the bytes the table's length counts, and from no byte past them. -/

namespace Sys2Proof.Laws

open TableRow in
/-- Every instruction has its row: the per-instruction family as one statement. -/
theorem tableRow : ∀ i : Instr, TableRow.Statement i
  | .ldaImm v => ldaImm v | .ldaZp z => ldaZp z | .ldaZpx z => ldaZpx z | .ldaAbs w => ldaAbs w | .ldaAbsx w => ldaAbsx w
  | .ldaAbsy w => ldaAbsy w | .ldaIndx z => ldaIndx z | .ldaIndy z => ldaIndy z
  | .ldxImm v => ldxImm v | .ldxZp z => ldxZp z | .ldxZpy z => ldxZpy z | .ldxAbs w => ldxAbs w | .ldxAbsy w => ldxAbsy w
  | .ldyImm v => ldyImm v | .ldyZp z => ldyZp z | .ldyZpx z => ldyZpx z | .ldyAbs w => ldyAbs w | .ldyAbsx w => ldyAbsx w
  | .staZp z => staZp z | .staZpx z => staZpx z | .staAbs w => staAbs w | .staAbsx w => staAbsx w
  | .staAbsy w => staAbsy w | .staIndx z => staIndx z | .staIndy z => staIndy z
  | .stxZp z => stxZp z | .stxZpy z => stxZpy z | .stxAbs w => stxAbs w
  | .styZp z => styZp z | .styZpx z => styZpx z | .styAbs w => styAbs w
  | .adcImm v => adcImm v | .adcZp z => adcZp z | .adcZpx z => adcZpx z | .adcAbs w => adcAbs w | .adcAbsx w => adcAbsx w
  | .adcAbsy w => adcAbsy w | .adcIndx z => adcIndx z | .adcIndy z => adcIndy z
  | .sbcImm v => sbcImm v | .sbcZp z => sbcZp z | .sbcZpx z => sbcZpx z | .sbcAbs w => sbcAbs w | .sbcAbsx w => sbcAbsx w
  | .sbcAbsy w => sbcAbsy w | .sbcIndx z => sbcIndx z | .sbcIndy z => sbcIndy z
  | .incZp z => incZp z | .incZpx z => incZpx z | .incAbs w => incAbs w | .incAbsx w => incAbsx w
  | .decZp z => decZp z | .decZpx z => decZpx z | .decAbs w => decAbs w | .decAbsx w => decAbsx w
  | .inx => inx | .iny => iny | .dex => dex | .dey => dey | .tax => tax | .tay => tay | .txa => txa | .tya => tya
  | .tsx => tsx | .txs => txs
  | .andImm v => andImm v | .andZp z => andZp z | .andZpx z => andZpx z | .andAbs w => andAbs w | .andAbsx w => andAbsx w
  | .andAbsy w => andAbsy w | .andIndx z => andIndx z | .andIndy z => andIndy z
  | .eorImm v => eorImm v | .eorZp z => eorZp z | .eorZpx z => eorZpx z | .eorAbs w => eorAbs w | .eorAbsx w => eorAbsx w
  | .eorAbsy w => eorAbsy w | .eorIndx z => eorIndx z | .eorIndy z => eorIndy z
  | .oraImm v => oraImm v | .oraZp z => oraZp z | .oraZpx z => oraZpx z | .oraAbs w => oraAbs w | .oraAbsx w => oraAbsx w
  | .oraAbsy w => oraAbsy w | .oraIndx z => oraIndx z | .oraIndy z => oraIndy z
  | .cmpImm v => cmpImm v | .cmpZp z => cmpZp z | .cmpZpx z => cmpZpx z | .cmpAbs w => cmpAbs w | .cmpAbsx w => cmpAbsx w
  | .cmpAbsy w => cmpAbsy w | .cmpIndx z => cmpIndx z | .cmpIndy z => cmpIndy z
  | .cpxImm v => cpxImm v | .cpxZp z => cpxZp z | .cpxAbs w => cpxAbs w
  | .cpyImm v => cpyImm v | .cpyZp z => cpyZp z | .cpyAbs w => cpyAbs w
  | .bitZp z => bitZp z | .bitAbs w => bitAbs w
  | .aslAcc => aslAcc | .aslZp z => aslZp z | .aslZpx z => aslZpx z | .aslAbs w => aslAbs w | .aslAbsx w => aslAbsx w
  | .lsrAcc => lsrAcc | .lsrZp z => lsrZp z | .lsrZpx z => lsrZpx z | .lsrAbs w => lsrAbs w | .lsrAbsx w => lsrAbsx w
  | .rolAcc => rolAcc | .rolZp z => rolZp z | .rolZpx z => rolZpx z | .rolAbs w => rolAbs w | .rolAbsx w => rolAbsx w
  | .rorAcc => rorAcc | .rorZp z => rorZp z | .rorZpx z => rorZpx z | .rorAbs w => rorAbs w | .rorAbsx w => rorAbsx w
  | .clc => clc | .cld => cld | .cli => cli | .clv => clv | .sec => sec | .sed => sed | .sei => sei | .nop => nop
  | .pha => pha | .php => php | .pla => pla | .plp => plp | .bcc d => bcc d | .bcs d => bcs d | .beq d => beq d
  | .bmi d => bmi d | .bne d => bne d | .bpl d => bpl d | .bvc d => bvc d | .bvs d => bvs d
  | .jmpAbs w => jmpAbs w | .jmpInd w => jmpInd w
  | .jsr w => jsr w | .rts => rts | .brk => brk | .rti => rti

end Sys2Proof.Laws

namespace Sys2Proof

open Sys2Proof.Machine Sys2Proof.Claims

/-! ### Rows and forms -/

/-- R55: a defined instruction has 1, 2 or 3 bytes. -/
theorem OpcodeRow.Ok.length_cases {r : OpcodeRow} (h : r.Ok) : r.length = 1 ∨ r.length = 2 ∨ r.length = 3 := by
  obtain ⟨-, ⟨hl, -⟩ | ⟨hl, -⟩ | ⟨hl, -⟩⟩ := h 0x00 0x00
  · exact .inl hl
  · exact .inr (.inl hl)
  · exact .inr (.inr hl)

/-- A row's instruction depends on no byte past the row's length. -/
theorem OpcodeRow.Ok.make_append {r : OpcodeRow} (h : r.Ok) {bytes : List Byte} (hlength : r.length = bytes.length + 1)
    (rest : List Byte) :
    r.make ((bytes ++ rest).getD 0 0x00) ((bytes ++ rest).getD 1 0x00) =
      r.make (bytes.getD 0 0x00) (bytes.getD 1 0x00) := by
  obtain ⟨-, ⟨hl, -, hmake⟩ | ⟨hl, -, hmake⟩ | ⟨hl, -⟩⟩ :=
    h ((bytes ++ rest).getD 0 0x00) ((bytes ++ rest).getD 1 0x00)
  · obtain rfl : bytes = [] := List.length_eq_zero_iff.1 (by omega)
    exact hmake
  · obtain ⟨b1, rfl⟩ := List.length_eq_one_iff.1 (show bytes.length = 1 by omega)
    exact hmake
  · match bytes, (show bytes.length = 2 by omega) with
    | [b1, b2], _ => rfl

/-- A row's instruction keeps, as its operand, the bytes up to the row's length. -/
theorem OpcodeRow.Ok.bytes_make {r : OpcodeRow} (h : r.Ok) {tail : List Byte} (hlength : r.length ≤ tail.length + 1) :
    (r.make (tail.getD 0 0x00) (tail.getD 1 0x00)).form.bytes = tail.take (r.length - 1) := by
  obtain ⟨-, ⟨hl, hbytes, -⟩ | ⟨hl, hbytes, -⟩ | ⟨hl, hbytes⟩⟩ := h (tail.getD 0 0x00) (tail.getD 1 0x00)
  all_goals rw [hbytes, hl]
  · rfl
  · match tail, hlength with
    | [], hlength => simp [hl] at hlength
    | b1 :: _, _ => rfl
  · match tail, hlength with
    | [], hlength | [_], hlength => simp [hl] at hlength
    | b1 :: b2 :: _, _ => rfl

/-- R55, R58: the operand bytes of a form, and the opcode byte before them, are its mode's length. -/
theorem Form.length_bytes (f : Form) : f.bytes.length + 1 = f.mode.length := by
  match f with
  | .imp | .ind _ | .rel _ | .data .acc | .data (.imm _) => rfl
  | .data (.mem m) => cases m <;> rfl

theorem length_encode (i : Instr) : (encode i).length = i.mode.length := i.form.length_bytes

/-! ### The decoder -/

theorem decode_of_rowOf_none {op : Byte} (h : rowOf op = none) (rest : List Byte) :
    decode (op :: rest) = .error (.illegalOpcode op) := by
  simp [decode, h]

/-- What decodes: a byte with a row and at least the bytes the row counts. -/
theorem decode_eq_ok_iff {op : Byte} {tail rest : List Byte} {i : Instr} :
    decode (op :: tail) = .ok i rest ↔ ∃ r, rowOf op = some r ∧ r.length ≤ tail.length + 1 ∧
      r.make (tail.getD 0 0x00) (tail.getD 1 0x00) = i ∧ tail.drop (r.length - 1) = rest := by
  cases hrow : rowOf op with
  | none => simp [decode_of_rowOf_none hrow]
  | some r =>
    by_cases hlength : tail.length + 1 < r.length
    · simp [decode, hrow, hlength, Nat.not_le_of_lt hlength]
    · simp [decode, hrow, hlength, Nat.le_of_not_lt hlength]

/-- Settles O5: the row of the opcode byte takes from the bytes after it the operand bytes only, and makes the instruction
back from those. -/
theorem decodeOfEncodeIsTheInstruction : Obligations.DecodeOfEncodeIsTheInstruction := by
  intro i rest
  obtain ⟨r, hrow, -, -, hlength, hmake⟩ := Laws.tableRow i
  have hbytes : r.length = i.form.bytes.length + 1 := hlength
  refine decode_eq_ok_iff.2 ⟨r, hrow, by simp [hbytes], ?_, by simp [hbytes]⟩
  exact ((rowOf_ok hrow).make_append hbytes rest).trans hmake

/-- Settles O6: the instruction a row makes keeps the opcode byte and the operand bytes, and the rest is what follows them. -/
theorem decodedBytesAreTheEncoding : Obligations.DecodedBytesAreTheEncoding := by
  intro bytes i rest h
  cases bytes with
  | nil => exact nomatch h
  | cons op tail =>
    obtain ⟨r, hrow, hlength, rfl, rfl⟩ := decode_eq_ok_iff.1 h
    have hok := rowOf_ok hrow
    rw [encode, hok.bytes_make hlength, (hok _ _).1, (rowOf_mem hrow).2, List.cons_append, List.take_append_drop]

/-- Settles O7: each word is the encoding of the instruction beside it. -/
theorem writtenWordsDecode : Obligations.WrittenWordsDecode :=
  have decodes := decodeOfEncodeIsTheInstruction
  ⟨decodes .inx [], decodes .aslAcc [], decodes (.ldaImm 0x10) [], decodes (.ldaZp 0x20) [], decodes (.ldxZpy 0x20) [],
    decodes (.ldaAbsx 0x1234) [], decodes (.jmpInd 0x1234) [], decodes (.ldaIndx 0x20) [], decodes (.ldaIndy 0x20) [],
    decodes (.bne 0xFE) [], decodes (.adcImm 0x50) [], decodes .tax [], decodes (.bitAbs 0x1234) [], decodes .clc [],
    decodes .pha [], decodes .brk [0xEA]⟩

/-! ### The metadata table -/

theorem metaOf_of_rowOf {op : Byte} {r : OpcodeRow} (h : rowOf op = some r) :
    metaOf op = { mnemonic := r.mnemonic.text, length := r.length, cycles := r.cycles, label := r.mode.label } := by
  simp [metaOf, h]

theorem metaOf_of_rowOf_none {op : Byte} (h : rowOf op = none) :
    metaOf op = { mnemonic := "", length := 0, cycles := 0, label := "" } := by
  simp [metaOf, h]

/-- R61: a byte with a row has a length. -/
theorem metaOf_length_cases {op : Byte} (h : op ∉ illegalBytes) :
    (metaOf op).length = 1 ∨ (metaOf op).length = 2 ∨ (metaOf op).length = 3 := by
  obtain ⟨r, hrow⟩ := Option.ne_none_iff_exists'.1 (mt (rowOf_eq_none_iff op).1 h)
  rw [metaOf_of_rowOf hrow]
  exact (rowOf_ok hrow).length_cases

/-- Settles O8: the listed bytes are those without a row, and a row's length is never 0. -/
theorem illegalBytesAreTheListedOnes : Obligations.IllegalBytesAreTheListedOnes := by
  refine ⟨rfl, fun op => ⟨fun h => metaOf_of_rowOf_none ((rowOf_eq_none_iff op).2 h), fun hzero => ?_⟩,
    fun op => metaOf_length_cases, fun op rest h => decode_of_rowOf_none ((rowOf_eq_none_iff op).2 h) rest⟩
  refine Decidable.byContradiction fun hlegal => ?_
  have hlength := metaOf_length_cases hlegal
  simp [hzero] at hlength

/-- R60: the rows stand in the order of their opcode bytes, so no byte has two. The order is compared on naturals, which is
cheap to evaluate. -/
theorem opcodeTable_opcodes_nodup : (opcodeTable.map OpcodeRow.opcode).Nodup := by
  have rise : (opcodeTable.map fun r => r.opcode.toNat).Pairwise (· < ·) := by decide +kernel
  have distinct {op op' : Byte} (h : op.toNat < op'.toNat) : op ≠ op' := fun heq => Nat.ne_of_lt h (congrArg _ heq)
  refine List.Pairwise.of_map BitVec.toNat (fun _ _ => distinct) ?_
  rw [List.map_map]
  exact rise

/-- Settles O9: the entry of an instruction's opcode byte is its row's. -/
theorem tableEntriesNameTheirInstructions : Obligations.TableEntriesNameTheirInstructions := by
  refine ⟨rfl, opcodeTable_opcodes_nodup, rfl, fun i => ?_⟩
  obtain ⟨r, hrow, hmnemonic, hmode, hlength, -⟩ := Laws.tableRow i
  rw [metaOf_of_rowOf hrow, hmnemonic, hmode, hlength]
  exact ⟨rfl, rfl, length_encode i, length_encode i, i.wf_all⟩

end Sys2Proof
end

section
/-! PROOF. The state a launch starts in (70_reset R220, R222): the loader places the image's bytes in order, so a cell holds the
last one placed there. -/

namespace Sys2Proof.Machine

/-- What the loader leaves in a cell: the last byte the image places there, or what the cell held before. -/
theorem Memory.read_load (m : Memory) (image : List (Word × Byte)) (addr : Word) :
    (m.load image).read addr.toNat =
      ((image.reverse.find? (fun cell => cell.1 == addr)).map Prod.snd).getD (m.read addr.toNat) := by
  induction image generalizing m with
  | nil => rfl
  | cons cell image ih =>
    obtain ⟨b, v⟩ := cell
    rw [Memory.load, ih, Memory.read_write, List.reverse_cons, List.find?_append]
    cases image.reverse.find? (fun cell => cell.1 == addr) with
    | some later => rfl
    | none =>
      by_cases hb : b = addr
      · simp [hb]
      · simp [hb, BitVec.toNat_inj, Ne.symm hb]

/-- Settles O1: the fields are those of the reset state or the launch's parameters, and the image lies over empty memory. -/
theorem launchStartsInTheResetState : Obligations.LaunchStartsInTheResetState :=
  ⟨fun l => ⟨rfl, rfl, rfl, fun f => by cases f <;> rfl, rfl, rfl, rfl, rfl, Memory.read_load [] l.image⟩, rfl, rfl⟩

end Sys2Proof.Machine
end

section
/-! PROOF. Straight-line code (40_dispatch R77, R80, R81): a run along the bytes at PC, and the idioms of 30_encoding R69. -/

namespace Sys2Proof.Machine

open Sys2Proof.Claims

/-! ### The bytes at PC -/

theorem bytesAtPc_congr {s t : State} (hpc : t.pc = s.pc) (hmem : t.mem = s.mem) (n : Nat) :
    bytesAtPc t n = bytesAtPc s n := by
  simp only [bytesAtPc, State.read, hpc, hmem]

theorem length_bytesAtPc (s : State) (n : Nat) : (bytesAtPc s n).length = n := by
  simp [bytesAtPc]

/-- The bytes at PC, cut after the first `m`. -/
theorem bytesAtPc_add (s : State) (m n : Nat) :
    bytesAtPc s (m + n) = bytesAtPc s m ++ bytesAtPc (s.setPc (s.pc + BitVec.ofNat 16 m)) n := by
  simp [bytesAtPc, List.range_add, BitVec.ofNat_add, BitVec.add_assoc]

/-- Code at PC that begins with an instruction: the step executes it, and the rest of the code is at the PC it sees. -/
theorem step_of_code {s : State} (i : Instr) {code : List Byte} (hf : s.fault = none) (hp : s.pc ∉ s.haltPc)
    (h : bytesAtPc s (encode i ++ code).length = encode i ++ code) :
    step s = exec i (s.setPc (s.pc + BitVec.ofNat 16 (encode i).length)) ∧
      bytesAtPc (s.setPc (s.pc + BitVec.ofNat 16 (encode i).length)) code.length = code := by
  rw [List.length_append, bytesAtPc_add] at h
  obtain ⟨hi, hcode⟩ := List.append_inj h (length_bytesAtPc ..)
  exact ⟨step_of_encoding (Laws.tableRow i) hf hp hi, hcode⟩

/-- The bytes at PC that decode to an instruction are executed as that instruction. -/
theorem step_of_decode {s : State} {i : Instr} {rest : List Byte} (hf : s.fault = none) (hp : s.pc ∉ s.haltPc)
    (h : decode [s.read s.pc, s.read (s.pc + 1), s.read (s.pc + 2)] = .ok i rest) :
    step s = exec i (s.setPc (s.pc + BitVec.ofNat 16 (encode i).length)) := by
  have code : bytesAtPc s 3 = encode i ++ rest := by
    rw [bytesAtPc_three]
    exact decodedBytesAreTheEncoding _ i rest h
  have hlength : (encode i ++ rest).length = 3 := by rw [← code, length_bytesAtPc]
  exact (step_of_code i hf hp (hlength ▸ code)).1

/-! ### What the idioms compute -/

theorem readOperand_congr (o : Operand) {s t : State} (ha : t.a = s.a) (hx : t.x = s.x) (hy : t.y = s.y)
    (hm : t.mem = s.mem) : readOperand o t = readOperand o s := by
  cases o with
  | imm v => rfl
  | acc => exact ha
  | mem m => simp only [readOperand, State.read, ea_congr m hx hy hm, hm]

@[simp] theorem readOperand_setPc (o : Operand) (s : State) (w : Word) : readOperand o (s.setPc w) = readOperand o s :=
  readOperand_congr o rfl rfl rfl rfl

@[simp] theorem readOperand_setFlag (o : Operand) (s : State) (f : Flag) (b : Bool) :
    readOperand o (s.setFlag f b) = readOperand o s :=
  readOperand_congr o rfl rfl rfl rfl

/-- R110: the sum modulo 256. -/
theorem adcResult_value_toNat (a m : Byte) (c : Bool) :
    (adcResult a m c).value.toNat = (a.toNat + m.toNat + c.toNat) % 256 := BitVec.toNat_ofNat ..

/-- R111: the difference modulo 256. -/
theorem sbcResult_value_toNat (a m : Byte) (c : Bool) :
    ((sbcResult a m c).value.toNat : Int) = ((a.toNat : Int) - m.toNat - (1 - c.toNat)) % 256 := by
  have hnonneg := Int.emod_nonneg ((a.toNat : Int) - m.toNat - (1 - c.toNat)) (show (256 : Int) ≠ 0 by decide)
  exact (congrArg Int.ofNat (BitVec.toNat_ofInt ..)).trans (Int.toNat_of_nonneg hnonneg)

/-- R94: the target of a branch, its displacement signed. -/
theorem relativeTarget_toNat (d : Byte) (s : State) :
    ((relativeTarget d s).toNat : Int) = ((s.pc.toNat : Int) + d.toInt) % 65536 := by
  rw [relativeTarget, sext16, BitVec.signExtend, BitVec.toNat_add, BitVec.toNat_ofInt]
  omega

/-! ### The idioms -/

variable {s : State}

/-- Where one of the distances is 0, an instruction at PC runs. -/
theorem running_of_runningAt {distances : List Nat} (h : RunningAt s (0 :: distances)) :
    s.fault = none ∧ s.pc ∉ s.haltPc :=
  ⟨h.1, by simpa using h.2 0 (List.mem_cons_self ..)⟩

/-- An instruction of one byte that writes C, then the instruction after it, which runs with that carry and all else as it
was. -/
theorem runsTo_of_carry_then (first : Instr) {i : Instr} {c : Bool} {rest : List Byte} {t : State} (hrun : RunningAt s [0, 1])
    (hbyte : encode first = [s.read s.pc]) (hfirst : ∀ u, exec first u = .next (u.setFlag .c c))
    (hi : decode [s.read (s.pc + 1), s.read (s.pc + 2), s.read (s.pc + 3)] = .ok i rest)
    (ht : exec i ((s.setPc (s.pc + 1 + BitVec.ofNat 16 (encode i).length)).setFlag .c c) = .next t) : RunsTo 2 s t := by
  obtain ⟨hf, hp⟩ := running_of_runningAt hrun
  have step1 : step s = .next ((s.setPc (s.pc + 1)).setFlag .c c) := by
    rw [step_of_encoding (Laws.tableRow first) hf hp (by rw [hbyte]; exact bytesAtPc_one s), hbyte, hfirst]
    rfl
  have second : decode [s.read (s.pc + 1), s.read (s.pc + 1 + 1), s.read (s.pc + 1 + 2)] = .ok i rest := by
    simpa [BitVec.add_assoc] using hi
  have step2 := step_of_decode (s := (s.setPc (s.pc + 1)).setFlag .c c) hf (hrun.2 1 (by simp)) second
  exact runsTo_succ.2 ⟨_, step1, runsTo_succ.2 ⟨t, step2.trans ht, runsTo_zero.2 rfl⟩⟩

theorem clc_adc_runs {i : Instr} {rest : List Byte} (hrun : RunningAt s [0, 1]) (hclc : s.read s.pc = 0x18)
    (hadc : i.mnemonic = .adc)
    (hi : decode [s.read (s.pc + 1), s.read (s.pc + 2), s.read (s.pc + 3)] = .ok i rest) :
    ∃ o t, i.form = .data o ∧ RunsTo 2 s t ∧ t.pc = s.pc + 1 + BitVec.ofNat 16 (encode i).length ∧
      t.a.toNat = (s.a.toNat + (readOperand o s).toNat) % 256 := by
  obtain ⟨o, hform, ht⟩ := exec_of_adc hadc
    ((s.setPc (s.pc + 1 + BitVec.ofNat 16 (encode i).length)).setFlag .c false)
  refine ⟨o, _, hform, runsTo_of_carry_then .clc hrun (congrArg (fun b => [b]) hclc.symm) (fun _ => rfl) hi ht, rfl, ?_⟩
  rw [adc, State.takeAlu_eq, adcResult_value_toNat]
  simp

theorem sec_sbc_runs {i : Instr} {rest : List Byte} (hrun : RunningAt s [0, 1]) (hsec : s.read s.pc = 0x38)
    (hsbc : i.mnemonic = .sbc)
    (hi : decode [s.read (s.pc + 1), s.read (s.pc + 2), s.read (s.pc + 3)] = .ok i rest) :
    ∃ o t, i.form = .data o ∧ RunsTo 2 s t ∧ t.pc = s.pc + 1 + BitVec.ofNat 16 (encode i).length ∧
      (t.a.toNat : Int) = ((s.a.toNat : Int) - (readOperand o s).toNat) % 256 := by
  obtain ⟨o, hform, ht⟩ := exec_of_sbc hsbc
    ((s.setPc (s.pc + 1 + BitVec.ofNat 16 (encode i).length)).setFlag .c true)
  refine ⟨o, _, hform, runsTo_of_carry_then .sec hrun (congrArg (fun b => [b]) hsec.symm) (fun _ => rfl) hi ht, rfl, ?_⟩
  rw [sbc, State.takeAlu_eq, sbcResult_value_toNat]
  simp

/-- The complement of A, plus 1, is its negation modulo 256. -/
theorem adcResult_complement_toNat (a : Byte) :
    ((adcResult (a ^^^ 0xFF) 0x01 false).value.toNat : Int) = (-(a.toNat : Int)) % 256 := by
  have complement : (a ^^^ 0xFF).toNat = 255 - a.toNat := by
    rw [show (0xFF : Byte) = BitVec.allOnes 8 from rfl, BitVec.xor_allOnes, BitVec.toNat_not]
  have := a.isLt
  rw [adcResult_value_toNat, complement, Bool.toNat_false, show (0x01 : Byte).toNat = 1 from rfl]
  omega

theorem eor_clc_adc_runs (hrun : RunningAt s [0, 2, 3]) (h : bytesAtPc s 5 = [0x49, 0xFF, 0x18, 0x69, 0x01]) :
    ∃ t, RunsTo 3 s t ∧ t.pc = s.pc + 5 ∧ (t.a.toNat : Int) = (-(s.a.toNat : Int)) % 256 := by
  obtain ⟨hf, hp⟩ := running_of_runningAt hrun
  have hp2 : s.pc + 2 ∉ s.haltPc := hrun.2 2 (by simp)
  have hp3 : s.pc + 2 + 1 ∉ s.haltPc := by simpa [BitVec.add_assoc] using hrun.2 3 (by simp)
  obtain ⟨eor, code⟩ := step_of_code (.eorImm 0xFF) (code := [0x18, 0x69, 0x01]) hf hp h
  obtain ⟨clc, code⟩ := step_of_code (s := eorA (.imm 0xFF) (s.setPc (s.pc + 2))) .clc (code := [0x69, 0x01]) hf hp2 code
  obtain ⟨adc, -⟩ := step_of_code (s := (eorA (.imm 0xFF) (s.setPc (s.pc + 2 + 1))).setFlag .c false) (.adcImm 0x01)
    (code := []) hf hp3 code
  refine ⟨_, runsTo_succ.2 ⟨_, eor, runsTo_succ.2 ⟨_, clc, runsTo_succ.2 ⟨_, adc, runsTo_zero.2 rfl⟩⟩⟩, ?_,
    adcResult_complement_toNat s.a⟩
  show s.pc + 2 + 1 + 2 = s.pc + 5
  simp [BitVec.add_assoc]

theorem clv_bvc_runs {d : Byte} (hrun : RunningAt s [0, 1]) (h : bytesAtPc s 3 = [0xB8, 0x50, d]) :
    ∃ t, RunsTo 2 s t ∧ (t.pc.toNat : Int) = ((s.pc.toNat : Int) + 3 + d.toInt) % 65536 := by
  obtain ⟨hf, hp⟩ := running_of_runningAt hrun
  obtain ⟨clv, code⟩ := step_of_code .clv (code := [0x50, d]) hf hp h
  obtain ⟨bvc, -⟩ := step_of_code (s := (s.setPc (s.pc + 1)).setFlag .v false) (.bvc d) (code := []) hf
    (hrun.2 1 (by simp)) code
  refine ⟨_, runsTo_succ.2 ⟨_, clv, runsTo_succ.2 ⟨_, bvc, runsTo_zero.2 rfl⟩⟩, ?_⟩
  have target := relativeTarget_toNat d (s.setPc (s.pc + 1 + 2))
  rw [State.setPc_pc, BitVec.toNat_add, BitVec.toNat_add, show (1 : Word).toNat = 1 from rfl,
    show (2 : Word).toNat = 2 from rfl] at target
  exact target.trans (by omega)

/-- Settles O54: each idiom is a run along its bytes. -/
theorem idiomsDoWhatTheyAreUsedFor : Obligations.IdiomsDoWhatTheyAreUsedFor := fun _ =>
  ⟨fun _ _ => clc_adc_runs, fun _ _ => sec_sbc_runs, eor_clc_adc_runs, fun _ => clv_bvc_runs⟩

end Sys2Proof.Machine
end

section
/-! PROOF. The addressing modes on naturals (40_dispatch R85–R94), and the two jumps that use them (48_control R189, R190). -/

namespace Sys2Proof.Machine

open Sys2Proof.Claims

@[simp] theorem zext16_toNat (b : Byte) : (zext16 b).toNat = b.toNat :=
  BitVec.toNat_setWidth_of_le (by decide)

/-- R86: the indexed zero-page address, modulo 256. -/
theorem zext16_add_toNat (z i : Byte) : (zext16 (z + i)).toNat = (z.toNat + i.toNat) % 256 := by
  rw [zext16_toNat, BitVec.toNat_add]

/-- R89: the indexed address, modulo 65536. -/
theorem add_zext16_toNat (w : Word) (i : Byte) : (w + zext16 i).toNat = (w.toNat + i.toNat) % 65536 := by
  rw [BitVec.toNat_add, zext16_toNat]

/-- R91: the pointer of (indirect,X), both of whose bytes lie in the zero page. -/
theorem ea_indx_toNat (z : Byte) (s : State) :
    (ea (.indx z) s).toNat =
      (s.read (BitVec.ofNat 16 ((z.toNat + s.x.toNat) % 256))).toNat
        + 256 * (s.read (BitVec.ofNat 16 ((z.toNat + s.x.toNat + 1) % 256))).toNat := by
  rw [ea, State.zpRead16_toNat, BitVec.toNat_add, Nat.mod_add_mod]

/-- R92: the pointer of (indirect),Y, then the index modulo 65536. -/
theorem ea_indy_toNat (z : Byte) (s : State) :
    (ea (.indy z) s).toNat =
      ((s.read (BitVec.ofNat 16 z.toNat)).toNat + 256 * (s.read (BitVec.ofNat 16 ((z.toNat + 1) % 256))).toNat
        + s.y.toNat) % 65536 := by
  rw [ea, add_zext16_toNat, State.zpRead16_toNat]

/-- Settles O14: a sum of bytes wraps in the zero page, a sum with a word at the top of memory. -/
theorem effectiveAddressesOfTheModes : Obligations.EffectiveAddressesOfTheModes := fun s z d _ w =>
  ⟨zext16_toNat z, zext16_add_toNat z s.x, zext16_add_toNat z s.y, rfl, add_zext16_toNat w s.x, add_zext16_toNat w s.y,
    ea_indx_toNat z s, ea_indy_toNat z s, relativeTarget_toNat d s, rfl, rfl, fun _ => rfl⟩

/-! ### The jumps -/

/-- R93's `ptr & 0xFF00`: the base of the pointer's page. -/
theorem and_page_toNat (w : Word) : (w &&& 0xFF00).toNat = 256 * (w.toNat / 256) := by
  have page : word (lowByte w) (highByte w) &&& word 0x00 0xFF = word 0x00 (highByte w) := by
    rw [word, word, BitVec.and_append, show (0xFF : Byte) = BitVec.allOnes 8 from rfl, BitVec.and_allOnes,
      show (0x00 : Byte) = 0#8 from rfl, BitVec.and_zero]
    rfl
  rw [Laws.word_low_high] at page
  rw [show (0xFF00 : Word) = word 0x00 0xFF from rfl, page, word_toNat, highByte_toNat]
  exact Nat.zero_add _

/-- R93: the high byte of the pointer is at the next address of the pointer's own page. -/
theorem pointerHighAddr_toNat (ptr : Word) :
    (pointerHighAddr ptr).toNat = (ptr &&& 0xFF00).toNat + (ptr.toNat + 1) % 256 := by
  rw [pointerHighAddr, word_toNat, BitVec.toNat_add, lowByte_toNat, highByte_toNat, and_page_toNat,
    show (1 : Byte).toNat = 1 from rfl]
  omega

theorem indirectTarget_eq (ptr : Word) (s : State) :
    indirectTarget ptr s =
      BitVec.ofNat 16 ((s.read ptr).toNat + 256 * (s.read (pointerHighAddr ptr)).toNat) := by
  apply BitVec.eq_of_toNat_eq
  rw [← word_toNat, BitVec.ofNat_toNat, BitVec.setWidth_eq, indirectTarget]

/-- Settles O37: the address given for the high byte is the one JMP indirect reads. -/
theorem jumpsGoToTheirTarget : Obligations.JumpsGoToTheirTarget := by
  refine ⟨rfl, fun s w highAddr hhigh => ⟨rfl, ?_⟩⟩
  obtain rfl : highAddr = pointerHighAddr w := BitVec.eq_of_toNat_eq (hhigh.trans (pointerHighAddr_toNat w).symm)
  rw [← indirectTarget_eq]
  rfl

end Sys2Proof.Machine
end

section
/-! PROOF. What a step answers, by the bytes at PC (40_dispatch R77–R81), and that it goes no further once it has stopped (R75,
R78; 60_exceptions R200). -/

namespace Sys2Proof.Machine

open Sys2Proof.Claims

/-- Settles O10: what the bytes at PC decode to is what the fetch reads there. -/
theorem stepRunsTheDecodedInstruction : Obligations.StepRunsTheDecodedInstruction :=
  fun _ _ _ hf hp h => step_of_decode hf hp h

/-- Settles O11: a byte of length 0 is one without a row. -/
theorem illegalOpcodeFaultsPrecisely : Obligations.IllegalOpcodeFaultsPrecisely := by
  intro s hf hp hlength
  have hillegal : s.read s.pc ∈ illegalBytes := Decidable.byContradiction fun hlegal => by
    have hcases := metaOf_length_cases hlegal
    omega
  exact step_of_illegal hf hp hillegal

/-- The inversion of an illegal-opcode fault: it carries the state it met, with the fault recorded. -/
theorem step_illegal {s after : State} {op : Byte} {pc : Word} (h : step s = .fault (.illegalOpcode op pc after)) :
    after = s.setFault (.illegalOpcode op pc) := by
  cases hf : s.fault with
  | some cause => exact nomatch (step_of_faulted hf).symm.trans h
  | none =>
    by_cases hp : s.pc ∈ s.haltPc
    · exact nomatch (step_of_final hf hp).symm.trans h
    by_cases hop : s.read s.pc ∈ illegalBytes
    · cases (step_of_illegal hf hp hop).symm.trans h
      rfl
    · obtain ⟨t, ht⟩ := step_of_defined hf hp hop
      exact nomatch ht.symm.trans h

/-- Settles O12: a recorded fault stops the machine, and an illegal opcode records one. -/
theorem faultedAndFinalStatesTakeNoStep : Obligations.FaultedAndFinalStatesTakeNoStep := by
  refine ⟨fun _ _ => step_of_faulted, fun _ => step_of_final, fun s after op pc h => ?_⟩
  obtain rfl := step_illegal h
  exact ⟨rfl, rfl, fun t ht => nomatch (step_of_faulted rfl).symm.trans ht⟩

end Sys2Proof.Machine
end

section
/-! PROOF. One mnemonic, one effect (40_dispatch R82, R99): an instruction changes registers and flags as its mnemonic and its
operand's value say, whatever its mode. -/

namespace Sys2Proof.Machine

open Sys2Proof.Claims

/-! ### The mnemonics with an operand value -/

/-- The mnemonics whose instructions read an operand value. -/
def operandReaders : List Mnemonic :=
  [.lda, .ldx, .ldy, .adc, .sbc, .inc, .dec, .and, .eor, .ora, .cmp, .cpx, .cpy, .bit, .asl, .lsr, .rol, .ror]

/-- The others with a data operand use its address; the rest have the implied or the relative mode only. -/
theorem operandReaders_or_modes (m : Mnemonic) :
    m ∈ operandReaders ∨ m ∈ [Mnemonic.sta, .stx, .sty, .jmp, .jsr] ∨ ∀ mode ∈ m.modes, mode = .imp ∨ mode = .rel := by
  cases m <;> decide

theorem data_mode_ne (o : Operand) : (Form.data o).mode ≠ .imp ∧ (Form.data o).mode ≠ .rel := by
  match o with
  | .imm _ | .acc => decide +revert
  | .mem m => cases m <;> exact ⟨nofun, nofun⟩

theorem form_mode_mem_modes (i : Instr) : i.form.mode ∈ i.mnemonic.modes := by
  simpa [Instr.wf, Form.wfFor, Mnemonic.takes] using i.wf_all

theorem mem_operandReaders {i : Instr} {o : Operand} (hform : i.form = .data o)
    (hm : i.mnemonic ∉ [Mnemonic.sta, .stx, .sty, .jmp, .jsr]) : i.mnemonic ∈ operandReaders := by
  obtain h | h | h := operandReaders_or_modes i.mnemonic
  · exact h
  · exact absurd h hm
  · have hmode := h _ (form_mode_mem_modes i)
    rw [hform] at hmode
    exact absurd hmode (not_or.2 (data_mode_ne o))

theorem shifts_of_acc_mem_modes (m : Mnemonic) : .acc ∈ m.modes → m ∈ shifts := by
  cases m <;> decide

/-- R154: only shifts have the accumulator mode. -/
theorem mem_shifts_of_acc {i : Instr} (hform : i.form = .data .acc) : i.mnemonic ∈ shifts := by
  have hmode := form_mode_mem_modes i
  rw [hform] at hmode
  exact shifts_of_acc_mem_modes _ hmode

/-! ### The effect on registers and flags -/

/-- The registers and flags of a state, the rest blank. -/
def State.registers (s : State) : State := { s with mem := [], fault := none, haltPc := [] }

/-- The flags after a shift of `v`. -/
def shiftFlags (f : Byte → Bool → ShiftResult) (v : Byte) (s : State) : State :=
  (s.setFlag .c (f v s.flags.c).carry).setNZ (f v s.flags.c).value

/-- The effect of a mnemonic on registers and flags when its operand has the value `v` (R99); of INC, DEC and the shifts without
the write of their result, whose place the mode decides. -/
def operandEffect (m : Mnemonic) (v : Byte) (s : State) : State :=
  match m with
  | .lda => lda (.imm v) s
  | .ldx => ldx (.imm v) s
  | .ldy => ldy (.imm v) s
  | .adc => adc (.imm v) s
  | .sbc => sbc (.imm v) s
  | .inc => s.setNZ (v + 1)
  | .dec => s.setNZ (v - 1)
  | .and => andA (.imm v) s
  | .eor => eorA (.imm v) s
  | .ora => oraA (.imm v) s
  | .cmp => cmp (.imm v) s
  | .cpx => cpx (.imm v) s
  | .cpy => cpy (.imm v) s
  | .bit => s.bitTest v
  | .asl => shiftFlags aslResult v s
  | .lsr => shiftFlags lsrResult v s
  | .rol => shiftFlags rolResult v s
  | .ror => shiftFlags rorResult v s
  | _ => s

/-- `t` has the registers of `e`, but for A where A is the place of the result. -/
def HasRegisters (o : Operand) (e t : State) : Prop :=
  t.registers = e.setA t.a ∧ (o ≠ .acc → t.a = e.a)

theorem shiftPlace_hasRegisters (f : Byte → Bool → ShiftResult) (p : Place) (s : State) :
    HasRegisters p.operand (shiftFlags f (readOperand p.operand s) s.registers) (shiftPlace f p s) := by
  cases p with
  | acc => exact ⟨rfl, fun h => absurd rfl h⟩
  | mem m => exact ⟨rfl, fun _ => rfl⟩

/-- An instruction that runs an operation on its operand leaves the registers that the operation leaves. -/
theorem hasRegisters_of_form {α : Type} {asOperand : α → Operand} {run : α → State → State} {effect : Byte → State → State}
    {i : Instr} {o : Operand} {s : State} (hform : i.form = .data o)
    (hrun : ∃ x, i.form = .data (asOperand x) ∧ exec i s = .next (run x s))
    (hregs : ∀ x, HasRegisters (asOperand x) (effect (readOperand (asOperand x) s) s.registers) (run x s)) :
    ∃ t, exec i s = .next t ∧ HasRegisters o (effect (readOperand o s) s.registers) t := by
  obtain ⟨x, hx, hexec⟩ := hrun
  cases hx.symm.trans hform
  exact ⟨_, hexec, hregs x⟩

/-- R82, R99: an instruction that reads an operand value has its mnemonic's effect. -/
theorem exec_operandEffect {i : Instr} {o : Operand} (hform : i.form = .data o) (hreads : i.mnemonic ∈ operandReaders)
    (s : State) :
    ∃ t, exec i s = .next t ∧ HasRegisters o (operandEffect i.mnemonic (readOperand o s) s.registers) t := by
  cases hm : i.mnemonic with
  | lda => exact hasRegisters_of_form hform (exec_of_lda hm s) fun _ => ⟨rfl, fun _ => rfl⟩
  | ldx => exact hasRegisters_of_form hform (exec_of_ldx hm s) fun _ => ⟨rfl, fun _ => rfl⟩
  | ldy => exact hasRegisters_of_form hform (exec_of_ldy hm s) fun _ => ⟨rfl, fun _ => rfl⟩
  | adc => exact hasRegisters_of_form hform (exec_of_adc hm s) fun _ => ⟨rfl, fun _ => rfl⟩
  | sbc => exact hasRegisters_of_form hform (exec_of_sbc hm s) fun _ => ⟨rfl, fun _ => rfl⟩
  | inc => exact hasRegisters_of_form hform (exec_of_inc hm s) fun _ => ⟨rfl, fun _ => rfl⟩
  | dec => exact hasRegisters_of_form hform (exec_of_dec hm s) fun _ => ⟨rfl, fun _ => rfl⟩
  | and => exact hasRegisters_of_form hform (exec_of_and hm s) fun _ => ⟨rfl, fun _ => rfl⟩
  | eor => exact hasRegisters_of_form hform (exec_of_eor hm s) fun _ => ⟨rfl, fun _ => rfl⟩
  | ora => exact hasRegisters_of_form hform (exec_of_ora hm s) fun _ => ⟨rfl, fun _ => rfl⟩
  | cmp => exact hasRegisters_of_form hform (exec_of_cmp hm s) fun _ => ⟨rfl, fun _ => rfl⟩
  | cpx => exact hasRegisters_of_form hform (exec_of_cpx hm s) fun _ => ⟨rfl, fun _ => rfl⟩
  | cpy => exact hasRegisters_of_form hform (exec_of_cpy hm s) fun _ => ⟨rfl, fun _ => rfl⟩
  | bit => exact hasRegisters_of_form hform (exec_of_bit hm s) fun _ => ⟨rfl, fun _ => rfl⟩
  | asl => exact hasRegisters_of_form hform (exec_of_asl hm s) fun _ => shiftPlace_hasRegisters ..
  | lsr => exact hasRegisters_of_form hform (exec_of_lsr hm s) fun _ => shiftPlace_hasRegisters ..
  | rol => exact hasRegisters_of_form hform (exec_of_rol hm s) fun _ => shiftPlace_hasRegisters ..
  | ror => exact hasRegisters_of_form hform (exec_of_ror hm s) fun _ => shiftPlace_hasRegisters ..
  | _ => exact absurd (hm ▸ hreads) (by decide)

/-! ### The result of a shift -/

/-- The forms of one shift share one operation on their place. -/
theorem exec_of_shift {m : Mnemonic} (hm : m ∈ shifts) :
    ∃ f, ∀ i : Instr, i.mnemonic = m → ∀ s, ∃ p : Place, i.form = .data p.operand ∧ exec i s = .next (shiftPlace f p s) := by
  simp only [shifts, List.mem_cons, List.not_mem_nil, or_false] at hm
  obtain rfl | rfl | rfl | rfl := hm
  · exact ⟨aslResult, fun _ h => exec_of_asl h⟩
  · exact ⟨lsrResult, fun _ h => exec_of_lsr h⟩
  · exact ⟨rolResult, fun _ h => exec_of_rol h⟩
  · exact ⟨rorResult, fun _ h => exec_of_ror h⟩

/-- A shift of A leaves in A what a memory form of the same shift, on the same value, leaves in its cell. -/
theorem exec_shift_acc_eq_cell {i j : Instr} {s u s' u' : State} {m : MemMode} (hmn : i.mnemonic = j.mnemonic)
    (hi : i.form = .data .acc) (hj : j.form = .data (.mem m)) (hvalue : s.a = readOperand (.mem m) u)
    (hflags : u.flags = s.flags) (hs : exec i s = .next s') (hu : exec j u = .next u') : s'.a = u'.read (ea m u) := by
  obtain ⟨f, hexec⟩ := exec_of_shift (mem_shifts_of_acc hi)
  obtain ⟨p, hp, hrun⟩ := hexec i rfl s
  obtain ⟨q, hq, hrun'⟩ := hexec j hmn.symm u
  cases p with
  | mem => cases hp.symm.trans hi
  | acc =>
    cases q with
    | acc => cases hq.symm.trans hj
    | mem =>
      cases hq.symm.trans hj
      cases hrun.symm.trans hs
      cases hrun'.symm.trans hu
      calc (shiftPlace f .acc s).a = (f s.a s.flags.c).value := rfl
        _ = (f (u.read (ea m u)) u.flags.c).value := by rw [hvalue, hflags]; rfl
        _ = (shiftPlace f (.mem m) u).read (ea m u) := by
          rw [shiftPlace_mem]; exact (State.read_write_same ..).symm

/-- Settles O46: both instructions have the effect of one mnemonic, on equal values and equal registers. -/
theorem flagsDoNotDependOnTheMode : Obligations.FlagsDoNotDependOnTheMode := by
  intro i j s u o p hmn hnot hi hj hvalue ha hx hy hsp hpc hflags
  have registers : u.registers = s.registers := by simp only [State.registers, ha, hx, hy, hsp, hpc, hflags]
  obtain ⟨s', hs, hs_regs, hs_a⟩ := exec_operandEffect hi (mem_operandReaders hi hnot) s
  obtain ⟨u', hu, hu_regs, hu_a⟩ := exec_operandEffect hj (mem_operandReaders hj (hmn ▸ hnot)) u
  rw [← hmn, ← hvalue, registers] at hu_regs hu_a
  have same : u'.registers.setA s'.a = s'.registers := by rw [hu_regs, hs_regs]; rfl
  obtain ⟨-, same_x, same_y, same_sp, same_pc, same_flags, -⟩ := State.mk.inj same
  refine ⟨s', u', hs, hu, same_flags, same_x, same_y, same_sp, same_pc, fun ho hp => (hu_a hp).trans (hs_a ho).symm, ?_⟩
  rintro rfl m rfl
  exact exec_shift_acc_eq_cell hmn hi hj hvalue hflags hs hu

end Sys2Proof.Machine
end

section
/-! PROOF. Loads and stores (41_load_store R100–R105): a register takes a byte and N and Z follow it, or one cell takes a
register. -/

namespace Sys2Proof.Machine

open Sys2Proof.Claims

/-- R27's two spellings agree: a byte is 0 when its value is, and its bit 7 is set when its value is at least 128. -/
theorem withNZ_eq (p : Flags) (r : Byte) : withNZ p r = { p with z := r == 0x00, n := r.getLsbD 7 } := by
  have zero : (r == 0x00) = decide (r.toNat = 0) := decide_eq_decide.2 BitVec.toNat_inj.symm
  have negative : r.getLsbD 7 = decide (128 ≤ r.toNat) := BitVec.msb_eq_decide r
  rw [withNZ, zero, negative]

theorem lda_eq_withNZ (o : Operand) (s : State) :
    lda o s = { s with a := readOperand o s, flags := withNZ s.flags (readOperand o s) } := by
  rw [lda_eq, withNZ_eq]

theorem ldx_eq_withNZ (o : Operand) (s : State) :
    ldx o s = { s with x := readOperand o s, flags := withNZ s.flags (readOperand o s) } := by
  rw [ldx_eq, withNZ_eq]

theorem ldy_eq_withNZ (o : Operand) (s : State) :
    ldy o s = { s with y := readOperand o s, flags := withNZ s.flags (readOperand o s) } := by
  rw [ldy_eq, withNZ_eq]

/-- Settles O17: the forms of a load share one operation on their operand, which writes the register and the flags. -/
theorem loadsTakeTheOperandAndSetNZ : Obligations.LoadsTakeTheOperandAndSetNZ := by
  refine ⟨rfl, rfl, rfl, fun i s => ⟨fun hm => ?lda, fun hm => ?ldx, fun hm => ?ldy⟩⟩
  case lda =>
    obtain ⟨o, hform, hexec⟩ := exec_of_lda hm s
    exact ⟨o, hform, lda_eq_withNZ o s ▸ hexec⟩
  case ldx =>
    obtain ⟨o, hform, hexec⟩ := exec_of_ldx hm s
    exact ⟨o, hform, ldx_eq_withNZ o s ▸ hexec⟩
  case ldy =>
    obtain ⟨o, hform, hexec⟩ := exec_of_ldy hm s
    exact ⟨o, hform, ldy_eq_withNZ o s ▸ hexec⟩

/-- MemWrite (00_scope R12) writes one cell. -/
theorem State.write_oneCellWritten (s : State) (addr : Word) (v : Byte) : OneCellWritten s (s.write addr v) addr v :=
  ⟨State.read_write_same s addr v, fun _ hb => State.read_write_ne s addr v hb⟩

/-- Settles O18: the forms of a store share one operation on their mode, a write at the effective address. -/
theorem storesWriteOneCell : Obligations.StoresWriteOneCell := by
  refine ⟨rfl, rfl, rfl, fun i s => ⟨fun hm => ?sta, fun hm => ?stx, fun hm => ?sty⟩⟩
  case sta =>
    obtain ⟨m, hform, hexec⟩ := exec_of_sta hm s
    exact ⟨m, _, hform, hexec, rfl, s.write_oneCellWritten (ea m s) s.a⟩
  case stx =>
    obtain ⟨m, hform, hexec⟩ := exec_of_stx hm s
    exact ⟨m, _, hform, hexec, rfl, s.write_oneCellWritten (ea m s) s.x⟩
  case sty =>
    obtain ⟨m, hform, hexec⟩ := exec_of_sty hm s
    exact ⟨m, _, hform, hexec, rfl, s.write_oneCellWritten (ea m s) s.y⟩

end Sys2Proof.Machine
end

section
/-! PROOF. ADC and SBC (42_arithmetic R110–R114): the two results by value, carry and overflow, and SBC as ADC of the complement
of its operand, from which its overflow follows. -/

namespace Sys2Proof.Machine

open Sys2Proof.Claims

/-! ### The result of an addition -/

theorem adcResult_value_eq (a m : Byte) (c : Bool) :
    (adcResult a m c).value = BitVec.ofNat 8 ((a.toNat + m.toNat + c.toNat) % 256) :=
  BitVec.eq_of_toNat_eq <| by rw [adcResult_value_toNat, BitVec.toNat_ofNat, Nat.mod_mod]

theorem adcResult_overflow_eq (a m : Byte) (c : Bool) :
    (adcResult a m c).overflow = decide ((~~~(a ^^^ m)) &&& (a ^^^ (adcResult a m c).value) &&& 0x80 ≠ 0x00) :=
  (decide_not ..).symm

/-- Masking with 0x80 keeps bit 7 alone. -/
theorem and_0x80_ne_zero_iff (v : Byte) : v &&& 0x80 ≠ 0x00 ↔ v.msb = true := by
  rw [show (0x80 : Byte) = BitVec.twoPow 8 7 from rfl, BitVec.and_twoPow]
  change _ ↔ v.getLsbD 7 = true
  cases v.getLsbD 7 <;> decide

/-- R110's bit formula: the summands agree in sign and the sum does not. -/
theorem adcResult_overflow_iff_signs (a m : Byte) (c : Bool) :
    (adcResult a m c).overflow = true ↔ a.msb = m.msb ∧ a.msb ≠ (adcResult a m c).value.msb := by
  rw [adcResult_overflow_eq, decide_eq_true_iff, and_0x80_ne_zero_iff, BitVec.msb_and, BitVec.msb_not, BitVec.msb_xor,
    BitVec.msb_xor]
  cases a.msb <;> cases m.msb <;> cases (adcResult a m c).value.msb <;> decide

/-- R113: a byte from 128 on stands for itself less 256, so the signs tell when the signed sum leaves the byte range. -/
theorem adcResult_overflow_iff (a m : Byte) (c : Bool) :
    (adcResult a m c).overflow = true ↔
      ¬(-128 ≤ a.toInt + m.toInt + (c.toNat : Int) ∧ a.toInt + m.toInt + (c.toNat : Int) ≤ 127) := by
  have ha := a.isLt
  have hm := m.isLt
  have hc := c.toNat_le
  rw [adcResult_overflow_iff_signs, BitVec.msb_eq_decide, BitVec.msb_eq_decide, BitVec.msb_eq_decide, ne_eq, decide_eq_decide,
    decide_eq_decide, adcResult_value_toNat, BitVec.toInt_eq_toNat_cond, BitVec.toInt_eq_toNat_cond]
  omega

/-! ### The result of a subtraction -/

theorem sbcResult_overflow_eq (a m : Byte) (c : Bool) :
    (sbcResult a m c).overflow = decide ((a ^^^ (sbcResult a m c).value) &&& (a ^^^ m) &&& 0x80 ≠ 0x00) :=
  (decide_not ..).symm

theorem sbcResult_value_eq_adcResult (a m : Byte) (c : Bool) : (sbcResult a m c).value = (adcResult a (~~~m) c).value := by
  have hm := m.isLt
  have difference := sbcResult_value_toNat a m c
  apply BitVec.eq_of_toNat_eq
  rw [adcResult_value_toNat, BitVec.toNat_not]
  omega

theorem sbcResult_carry_eq_adcResult (a m : Byte) (c : Bool) : (sbcResult a m c).carry = (adcResult a (~~~m) c).carry := by
  have hm := m.isLt
  have complement := BitVec.toNat_not (x := m)
  refine decide_eq_decide.2 ?_
  omega

theorem sbcResult_overflow_eq_adcResult (a m : Byte) (c : Bool) :
    (sbcResult a m c).overflow = (adcResult a (~~~m) c).overflow := by
  have complement : ~~~(a ^^^ ~~~m) = a ^^^ m := by rw [BitVec.not_xor_right, BitVec.not_not]
  rw [sbcResult_overflow_eq, adcResult_overflow_eq, sbcResult_value_eq_adcResult, complement, BitVec.and_comm (a ^^^ m)]

/-- Law L-b on the results: `a - m - (1 - c)` is `a + (255 - m) + c`, less 256. -/
theorem sbcResult_eq_adcResult_complement (a m : Byte) (c : Bool) : sbcResult a m c = adcResult a (~~~m) c :=
  (AluResult.mk.injEq ..).mpr
    ⟨sbcResult_value_eq_adcResult a m c, sbcResult_carry_eq_adcResult a m c, sbcResult_overflow_eq_adcResult a m c⟩

theorem byte_not_toInt (m : Byte) : (~~~m).toInt = -m.toInt - 1 := by
  have hm := m.isLt
  rw [BitVec.toInt_eq_toNat_cond, BitVec.toInt_eq_toNat_cond, BitVec.toNat_not]
  omega

/-- R113 for SBC: the overflow of adding the complement. -/
theorem sbcResult_overflow_iff (a m : Byte) (c : Bool) :
    (sbcResult a m c).overflow = true ↔
      ¬(-128 ≤ a.toInt - m.toInt - (1 - (c.toNat : Int)) ∧ a.toInt - m.toInt - (1 - (c.toNat : Int)) ≤ 127) := by
  rw [sbcResult_eq_adcResult_complement, adcResult_overflow_iff, byte_not_toInt]
  omega

/-! ### The instructions -/

/-- R110, R111: `takeAlu` with N and Z as `withNZ` says them. -/
theorem State.takeAlu_eq_withNZ (s : State) (r : AluResult) :
    s.takeAlu r =
      { s with a := r.value, flags := { withNZ s.flags r.value with c := r.carry, v := r.overflow } } := by
  rw [State.takeAlu_eq, withNZ_eq]

/-- Settles O19: the forms of ADC share one addition on their operand. -/
theorem adcAddsWithCarry : Obligations.AdcAddsWithCarry := by
  refine ⟨rfl, fun i s hm => ?_⟩
  obtain ⟨o, hform, hexec⟩ := exec_of_adc hm s
  refine ⟨o, (adcResult s.a (readOperand o s) s.flags.c).value, hform, adcResult_value_eq .., ?_⟩
  rw [hexec, adc, State.takeAlu_eq_withNZ, adcResult_overflow_eq]
  rfl

/-- Settles O20: the forms of SBC share one subtraction on their operand, whose difference lies in -256..255. -/
theorem sbcSubtractsWithBorrow : Obligations.SbcSubtractsWithBorrow := by
  refine ⟨rfl, fun i s hm => ?_⟩
  obtain ⟨o, hform, hexec⟩ := exec_of_sbc hm s
  refine ⟨o, (sbcResult s.a (readOperand o s) s.flags.c).value, _, hform, rfl, sbcResult_value_toNat .., ?_, ?_⟩
  · have ha := s.a.isLt
    have hoperand := (readOperand o s).isLt
    have hc := s.flags.c.toNat_le
    omega
  · rw [hexec, sbc, State.takeAlu_eq_withNZ, sbcResult_overflow_eq]
    rfl

/-- Settles O21: V is the overflow of the result. -/
theorem overflowIsSignedOverflow : Obligations.OverflowIsSignedOverflow := by
  refine fun i s => ⟨fun hm => ?adc, fun hm => ?sbc⟩
  case adc =>
    obtain ⟨o, hform, hexec⟩ := exec_of_adc hm s
    exact ⟨o, _, hform, hexec, adcResult_overflow_iff ..⟩
  case sbc =>
    obtain ⟨o, hform, hexec⟩ := exec_of_sbc hm s
    exact ⟨o, _, hform, hexec, sbcResult_overflow_iff ..⟩

/-- Settles O22: the two results are equal, and both instructions take theirs alike. -/
theorem sbcIsAdcOfTheComplement : Obligations.SbcIsAdcOfTheComplement := by
  intro i s hm
  obtain ⟨o, hform, hexec⟩ := exec_of_sbc hm s
  refine ⟨o, hform, ?_⟩
  rw [hexec, sbc, sbcResult_eq_adcResult_complement]
  rfl

/-- Settles O23: an instance of O51, since ADC and SBC are no writers of D. -/
theorem decimalFlagDoesNotReachAdcAndSbc : Obligations.DecimalFlagDoesNotReachAdcAndSbc := by
  intro i s b hm
  obtain ⟨hphp, hbrk, hwriter⟩ : i.mnemonic ≠ .php ∧ i.mnemonic ≠ .brk ∧ i.mnemonic ∉ writersOfFlag .d := by
    obtain h | h := hm <;> rw [h] <;> decide
  obtain ⟨t, ht, hflag⟩ := interruptAndDecimalFlagsGateNothing i s .d b (.inr rfl) hphp hbrk
  rw [if_neg hwriter] at hflag
  exact ⟨t, ht, hflag⟩

end Sys2Proof.Machine
end

section
/-! PROOF. Increments and decrements (42_arithmetic R115–R120): a cell or an index register counts modulo 256, and N and Z
follow it. -/

namespace Sys2Proof.Machine

open Sys2Proof.Claims

theorem byte_add_one_eq (v : Byte) : v + 1 = BitVec.ofNat 8 ((v.toNat + 1) % 256) :=
  BitVec.eq_of_toNat_eq <| by rw [BitVec.toNat_ofNat, Nat.mod_mod, BitVec.toNat_add]; rfl

theorem byte_sub_one_eq (v : Byte) : v - 1 = BitVec.ofNat 8 ((v.toNat + 255) % 256) :=
  BitVec.eq_of_toNat_eq <| by rw [BitVec.toNat_ofNat, Nat.mod_mod, BitVec.toNat_sub, Nat.add_comm v.toNat]; rfl

/-- What INC and DEC share: one cell takes a byte, and N and Z follow it. -/
theorem State.write_setNZ_rewrites (s : State) (addr : Word) (r : Byte) :
    (s.write addr r).setNZ r = { s with mem := ((s.write addr r).setNZ r).mem, flags := withNZ s.flags r } ∧
      OneCellWritten s ((s.write addr r).setNZ r) addr r :=
  ⟨by rw [withNZ_eq]; rfl, s.write_oneCellWritten addr r⟩

/-- Settles O24: the forms of INC and of DEC share one operation on their mode, which rewrites the cell it read. -/
theorem incAndDecRewriteOneCell : Obligations.IncAndDecRewriteOneCell := by
  refine ⟨rfl, rfl, fun i s => ⟨fun hm => ?inc, fun hm => ?dec⟩⟩
  case inc =>
    obtain ⟨m, hform, hexec⟩ := exec_of_inc hm s
    exact ⟨m, _, _, hform, byte_add_one_eq _, hexec, s.write_setNZ_rewrites (ea m s) (s.read (ea m s) + 1)⟩
  case dec =>
    obtain ⟨m, hform, hexec⟩ := exec_of_dec hm s
    exact ⟨m, _, _, hform, byte_sub_one_eq _, hexec, s.write_setNZ_rewrites (ea m s) (s.read (ea m s) - 1)⟩

theorem State.takeX_eq_withNZ (s : State) (r : Byte) : s.takeX r = { s with x := r, flags := withNZ s.flags r } := by
  rw [State.takeX_eq, withNZ_eq]

theorem State.takeY_eq_withNZ (s : State) (r : Byte) : s.takeY r = { s with y := r, flags := withNZ s.flags r } := by
  rw [State.takeY_eq, withNZ_eq]

/-- Settles O25: an index register takes its own value plus or minus 1. -/
theorem indexRegistersCountModulo256 : Obligations.IndexRegistersCountModulo256 := by
  refine ⟨rfl, rfl, rfl, rfl, fun s => ?_⟩
  simp only [← byte_add_one_eq, ← byte_sub_one_eq, ← State.takeX_eq_withNZ, ← State.takeY_eq_withNZ]
  exact ⟨rfl, rfl, rfl, rfl⟩

end Sys2Proof.Machine
end

section
/-! PROOF. Register transfers (43_transfer R125–R130): a register takes another's byte, and N and Z follow it but for TXS. -/

namespace Sys2Proof.Machine

open Sys2Proof.Claims

/-- TXA and TYA write A as AND, EOR and ORA do. -/
theorem State.takeLogic_eq_withNZ (s : State) (r : Byte) :
    s.takeLogic r = { s with a := r, flags := withNZ s.flags r } := by
  rw [State.takeLogic_eq, withNZ_eq]

/-- Settles O26: the five that set flags write their destination as `takeX`, `takeY` and `takeLogic` do, and TXS is a bare
write of SP. -/
theorem transfersCopyARegister : Obligations.TransfersCopyARegister := by
  refine ⟨rfl, rfl, rfl, rfl, rfl, rfl, fun s => ?_⟩
  simp only [← State.takeX_eq_withNZ, ← State.takeY_eq_withNZ, ← State.takeLogic_eq_withNZ]
  exact ⟨rfl, rfl, rfl, rfl, rfl, rfl⟩

end Sys2Proof.Machine
end

section
/-! PROOF. Logical operations, compares and bit test (44_logic_compare R135–R142): the logical operations write A with N and Z
after it, and the others write flags only. -/

namespace Sys2Proof.Machine

open Sys2Proof.Claims

/-- Settles O27: the forms of each mnemonic share one operation on their operand, and the three write their result alike. -/
theorem logicCombinesAWithTheOperand : Obligations.LogicCombinesAWithTheOperand := by
  refine ⟨rfl, rfl, rfl, fun i s => ?_⟩
  simp only [← State.takeLogic_eq_withNZ]
  exact ⟨fun hm => exec_of_and hm s, fun hm => exec_of_eor hm s, fun hm => exec_of_ora hm s⟩

/-! ### Bits by value -/

theorem byte_getLsbD_seven (v : Byte) : v.getLsbD 7 = decide (128 ≤ v.toNat) := BitVec.msb_eq_decide v

/-- The remainder drops bit 7, so bit 6 weighs most of what is left. -/
theorem byte_getLsbD_six (v : Byte) : v.getLsbD 6 = decide (64 ≤ v.toNat % 128) := by
  rw [BitVec.getLsbD, Nat.testBit_eq_decide_div_mod_eq, decide_eq_decide]
  omega

/-! ### Compares -/

/-- R138: the difference is zero when the bytes are equal. -/
theorem byte_sub_beq_zero (reg m : Byte) : (reg - m == 0x00) = decide (reg = m) := by
  have zero_add : 0x00 + m = m := BitVec.zero_add m
  exact decide_eq_decide.2 (by rw [BitVec.sub_eq_iff_eq_add, zero_add])

/-- The difference modulo 256, on naturals (R138). -/
theorem byte_sub_toNat (reg m : Byte) : (reg - m).toNat = (reg.toNat + 256 - m.toNat) % 256 := by
  have hm := m.isLt
  rw [BitVec.toNat_sub]
  omega

/-- `Compare` on naturals (R138). -/
theorem State.compare_eq_decide (s : State) (reg m : Byte) :
    s.compare reg m = { s with
      flags := { s.flags with
        z := decide (reg = m)
        c := decide (m.toNat ≤ reg.toNat)
        n := decide (128 ≤ (reg.toNat + 256 - m.toNat) % 256) } } := by
  rw [State.compare_eq, byte_sub_beq_zero, byte_getLsbD_seven, byte_sub_toNat]

/-- Settles O28: the three mnemonics run one compare, each on its own register. -/
theorem comparesSetFlagsOnly : Obligations.ComparesSetFlagsOnly := by
  refine ⟨rfl, rfl, rfl, fun i s reg hreg => ?_⟩
  simp only [← State.compare_eq_decide]
  obtain ⟨hm, rfl⟩ | ⟨hm, rfl⟩ | ⟨hm, rfl⟩ := hreg
  · exact exec_of_cmp hm s
  · exact exec_of_cpx hm s
  · exact exec_of_cpy hm s

/-! ### Bit test -/

/-- The flags of BIT by value (R142). -/
theorem State.bitTest_eq_decide (s : State) (m : Byte) :
    s.bitTest m = { s with
      flags := { s.flags with
        z := decide (s.a &&& m = 0x00)
        v := decide (64 ≤ m.toNat % 128)
        n := decide (128 ≤ m.toNat) } } := by
  rw [State.bitTest_eq, byte_getLsbD_six, byte_getLsbD_seven]
  rfl

/-- Settles O29: both forms test the byte at the effective address of their mode. -/
theorem bitTestsMemoryAgainstA : Obligations.BitTestsMemoryAgainstA := by
  refine ⟨rfl, fun i s hm => ?_⟩
  simp only [← State.bitTest_eq_decide]
  exact exec_of_bit hm s

end Sys2Proof.Machine
end

section
/-! PROOF. Shifts and rotates (45_shift_rotate R150–R154): the four results by value, the place each is written back to, and the
nine bits that a rotate of A turns. -/

namespace Sys2Proof.Machine

open Sys2Proof.Claims

/-! ### The results by value -/

theorem byte_shiftLeft_one_eq (v : Byte) : v <<< 1 = BitVec.ofNat 8 (2 * v.toNat) :=
  BitVec.eq_of_toNat_eq <| by rw [BitVec.toNat_shiftLeft, BitVec.toNat_ofNat, Nat.shiftLeft_eq, Nat.mul_comm, Nat.pow_one]

theorem byte_ushiftRight_one_eq (v : Byte) : v >>> 1 = BitVec.ofNat 8 (v.toNat / 2) :=
  BitVec.eq_of_toNat_eq <| by
    rw [BitVec.toNat_ushiftRight, Nat.shiftRight_eq_div_pow, BitVec.toNat_ofNat, Nat.mod_eq_of_lt (by omega)]

theorem byte_getLsbD_zero (v : Byte) : v.getLsbD 0 = decide (v.toNat % 2 = 1) := by
  rw [BitVec.getLsbD, Nat.testBit_zero]

theorem aslResult_eq (v : Byte) (c : Bool) : aslResult v c = ⟨BitVec.ofNat 8 (2 * v.toNat), v.getLsbD 7⟩ := by
  rw [aslResult, byte_shiftLeft_one_eq]

theorem lsrResult_eq (v : Byte) (c : Bool) : lsrResult v c = ⟨BitVec.ofNat 8 (v.toNat / 2), v.getLsbD 0⟩ := by
  rw [lsrResult, byte_ushiftRight_one_eq]

/-- R152: the shift leaves bit 0 clear, so the old carry adds 1 there. -/
theorem rolResult_eq (v : Byte) (c : Bool) :
    rolResult v c = ⟨BitVec.ofNat 8 (2 * v.toNat + c.toNat), v.getLsbD 7⟩ := by
  have carry : (BitVec.ofBool c).setWidth 8 = BitVec.ofNat 8 c.toNat := by cases c <;> rfl
  have disjoint : v <<< 1 &&& (BitVec.ofBool c).setWidth 8 = 0#8 := by
    ext k hk
    cases k <;> simp
  rw [rolResult, ← BitVec.add_eq_or_of_and_eq_zero _ _ disjoint, byte_shiftLeft_one_eq, carry, BitVec.ofNat_add]

/-- R153: the shift leaves bit 7 clear, so the old carry adds 128 there. -/
theorem rorResult_eq (v : Byte) (c : Bool) :
    rorResult v c = ⟨BitVec.ofNat 8 (v.toNat / 2 + 128 * c.toNat), v.getLsbD 0⟩ := by
  have carry : (BitVec.ofBool c).setWidth 8 <<< 7 = BitVec.ofNat 8 (128 * c.toNat) := by cases c <;> rfl
  have disjoint : v >>> 1 &&& (BitVec.ofBool c).setWidth 8 <<< 7 = 0#8 := by
    ext k hk
    obtain hlow | rfl : k < 7 ∨ k = 7 := by omega
    · simp [hlow]
    · simp
  rw [rorResult, ← BitVec.add_eq_or_of_and_eq_zero _ _ disjoint, byte_ushiftRight_one_eq, carry, BitVec.ofNat_add]

/-! ### The place of the result (R154) -/

theorem shiftPlace_acc_of_result {f : Byte → Bool → ShiftResult} {s : State} {r : Byte} {out : Bool}
    (hresult : f s.a s.flags.c = ⟨r, out⟩) :
    shiftPlace f .acc s = { s with a := r, flags := { withNZ s.flags r with c := out } } := by
  rw [shiftPlace_acc, withNZ_eq, hresult]

theorem shiftPlace_mem_of_result {f : Byte → Bool → ShiftResult} {m : MemMode} {s : State} {r : Byte} {out : Bool}
    (hresult : f (s.read (ea m s)) s.flags.c = ⟨r, out⟩) :
    OneCellWritten s (shiftPlace f (.mem m) s) (ea m s) r ∧
      shiftPlace f (.mem m) s =
        { s with mem := (shiftPlace f (.mem m) s).mem, flags := { withNZ s.flags r with c := out } } := by
  rw [shiftPlace_mem, withNZ_eq, hresult]
  exact ⟨s.write_oneCellWritten (ea m s) r, rfl⟩

/-- An instruction that runs a shift on its place, and whose form is a memory mode, rewrites the cell of that mode. -/
theorem exec_shift_mem {f : Byte → Bool → ShiftResult} {i : Instr} {m : MemMode} {s : State} {r : Byte} {out : Bool}
    (hexec : ∃ p : Place, i.form = .data p.operand ∧ exec i s = .next (shiftPlace f p s)) (hform : i.form = .data (.mem m))
    (hresult : f (s.read (ea m s)) s.flags.c = ⟨r, out⟩) :
    ∃ t, exec i s = .next t ∧ OneCellWritten s t (ea m s) r ∧
      t = { s with mem := t.mem, flags := { withNZ s.flags r with c := out } } := by
  obtain ⟨p, hplace, hexec⟩ := hexec
  cases p with
  | acc => cases hplace.symm.trans hform
  | mem =>
    cases hplace.symm.trans hform
    exact ⟨_, hexec, shiftPlace_mem_of_result hresult⟩

/-- Settles O30: the forms of each mnemonic share one operation on their place, which takes the mnemonic's result. -/
theorem shiftsRewriteTheirOperand : Obligations.ShiftsRewriteTheirOperand := by
  refine ⟨rfl, rfl, rfl, rfl, ?acc, fun i s m hm hform => ?mem⟩
  case acc =>
    rintro s _ _ rfl rfl
    simp only [← byte_getLsbD_seven, ← byte_getLsbD_zero]
    exact ⟨congrArg _ (shiftPlace_acc_of_result (aslResult_eq ..)), congrArg _ (shiftPlace_acc_of_result (lsrResult_eq ..)),
      congrArg _ (shiftPlace_acc_of_result (rolResult_eq ..)), congrArg _ (shiftPlace_acc_of_result (rorResult_eq ..))⟩
  case mem =>
    simp only [shifts, List.mem_cons, List.not_mem_nil, or_false] at hm
    obtain hm | hm | hm | hm := hm
    · obtain ⟨t, hexec, hcell, hstate⟩ := exec_shift_mem (exec_of_asl hm s) hform (aslResult_eq ..)
      exact ⟨t, _, _, hexec, hcell, hstate, by simp [hm]⟩
    · obtain ⟨t, hexec, hcell, hstate⟩ := exec_shift_mem (exec_of_lsr hm s) hform (lsrResult_eq ..)
      exact ⟨t, _, _, hexec, hcell, hstate, by simp [hm]⟩
    · obtain ⟨t, hexec, hcell, hstate⟩ := exec_shift_mem (exec_of_rol hm s) hform (rolResult_eq ..)
      exact ⟨t, _, _, hexec, hcell, hstate, by simp [hm]⟩
    · obtain ⟨t, hexec, hcell, hstate⟩ := exec_shift_mem (exec_of_ror hm s) hform (rorResult_eq ..)
      exact ⟨t, _, _, hexec, hcell, hstate, by simp [hm]⟩

/-! ### Nine rotates

A and C are a ring of nine bits, which a rotate turns by one place; nine turns are the whole way round. -/

/-- The ring, its places counted modulo 9: bits 0 to 7 of A, and C at place 8. -/
def State.ring (s : State) (k : Nat) : Bool := if k % 9 = 8 then s.flags.c else s.a.getLsbD (k % 9)

theorem ring_carry (s : State) {k : Nat} (hk : k % 9 = 8) : s.ring k = s.flags.c := if_pos hk

theorem ring_bit (s : State) {k j : Nat} (hk : k % 9 = j) (hj : j < 8) : s.ring k = s.a.getLsbD j := by
  subst hk
  exact if_neg (Nat.ne_of_lt hj)

theorem a_eq_and_c_eq_of_ring_eq {s t : State} (h : ∀ k, t.ring k = s.ring k) : t.a = s.a ∧ t.flags.c = s.flags.c := by
  refine ⟨BitVec.eq_of_getLsbD_eq fun k hk => ?_, h 8⟩
  have place : k % 9 = k := Nat.mod_eq_of_lt (Nat.lt_succ_of_lt hk)
  rw [← ring_bit t place hk, ← ring_bit s place hk, h k]

/-- A place of the ring is bit 0 of A, a bit `j + 1` of A, or C. -/
theorem ring_place_cases (k : Nat) : k % 9 = 0 ∨ (∃ j, j < 7 ∧ k % 9 = j + 1) ∨ k % 9 = 8 := by
  by_cases hinner : 0 < k % 9 ∧ k % 9 < 8
  · exact .inr (.inl ⟨k % 9 - 1, by omega, by omega⟩)
  · omega

/-! A rotate bit by bit (R152, R153). -/

theorem rolResult_bit_zero (v : Byte) (c : Bool) : (rolResult v c).value.getLsbD 0 = c := by
  simp [rolResult]

theorem rolResult_bit_succ (v : Byte) (c : Bool) {j : Nat} (hj : j < 7) :
    (rolResult v c).value.getLsbD (j + 1) = v.getLsbD j := by
  have hlt : j + 1 < 8 := Nat.succ_lt_succ hj
  simp [rolResult, BitVec.getLsbD_eq_getElem, hlt, Nat.lt_succ_of_lt hj]

theorem rorResult_bit_seven (v : Byte) (c : Bool) : (rorResult v c).value.getLsbD 7 = c := by
  simp [rorResult]

theorem rorResult_bit_of_lt (v : Byte) (c : Bool) {j : Nat} (hj : j < 7) :
    (rorResult v c).value.getLsbD j = v.getLsbD (j + 1) := by
  simp [rorResult, hj, Nat.add_comm]

/-- R152: each place takes the one below it, and bit 0 takes C. -/
theorem ring_rol_acc (s : State) (k : Nat) : (rol .acc s).ring k = s.ring (k + 8) := by
  rw [rol, shiftPlace_acc]
  obtain hk | ⟨j, hj, hk⟩ | hk := ring_place_cases k
  · rw [ring_bit _ hk (by decide), ring_carry s (by omega)]
    exact rolResult_bit_zero ..
  · rw [ring_bit _ hk (by omega), ring_bit s (j := j) (by omega) (by omega)]
    exact rolResult_bit_succ _ _ hj
  · rw [ring_carry _ hk, ring_bit s (j := 7) (by omega) (by decide)]
    rfl

/-- R153: each place takes the one above it, and C takes bit 0. -/
theorem ring_ror_acc (s : State) (k : Nat) : (ror .acc s).ring k = s.ring (k + 1) := by
  rw [ror, shiftPlace_acc]
  obtain hk | ⟨j, hj, hk⟩ | hk := ring_place_cases (k + 1)
  · rw [ring_bit s hk (by decide), ring_carry _ (by omega)]
    rfl
  · rw [ring_bit s hk (by omega), ring_bit _ (j := j) (by omega) (by omega)]
    exact rorResult_bit_of_lt _ _ hj
  · rw [ring_carry s hk, ring_bit _ (j := 7) (by omega) (by decide)]
    exact rorResult_bit_seven ..

/-- An instruction that turns the ring by `d` places turns it by `n * d` when it is executed `n` times. -/
theorem execAll_replicate_turns {i : Instr} {f : State → State} {d : Nat} (hexec : ∀ s, exec i s = .next (f s))
    (hturn : ∀ s k, (f s).ring k = s.ring (k + d)) (n : Nat) (s : State) :
    ∃ t, execAll (List.replicate n i) s = .next t ∧ ∀ k, t.ring k = s.ring (k + n * d) := by
  induction n generalizing s with
  | zero => exact ⟨s, rfl, fun k => by rw [Nat.zero_mul, Nat.add_zero]⟩
  | succ n ih =>
    obtain ⟨t, hrest, hring⟩ := ih (f s)
    refine ⟨t, ?_, fun k => by rw [hring, hturn, Nat.succ_mul, Nat.add_assoc]⟩
    rw [List.replicate_succ, execAll, hexec]
    exact hrest

theorem ring_add_nine_mul (s : State) (k d : Nat) : s.ring (k + 9 * d) = s.ring k := by
  rw [State.ring, State.ring, Nat.add_mul_mod_self_left]

theorem nine_turns_restore {i : Instr} {f : State → State} {d : Nat} (hexec : ∀ s, exec i s = .next (f s))
    (hturn : ∀ s k, (f s).ring k = s.ring (k + d)) (s : State) :
    ∃ t, execAll (List.replicate 9 i) s = .next t ∧ t.a = s.a ∧ t.flags.c = s.flags.c := by
  obtain ⟨t, hrun, hring⟩ := execAll_replicate_turns hexec hturn 9 s
  exact ⟨t, hrun, a_eq_and_c_eq_of_ring_eq fun k => (hring k).trans (ring_add_nine_mul s k d)⟩

/-- Settles O31: ROL turns the ring by 8 places and ROR by 1. -/
theorem nineRotatesRestore : Obligations.NineRotatesRestore := by
  rintro i s (rfl | rfl)
  · exact nine_turns_restore (fun _ => rfl) ring_rol_acc s
  · exact nine_turns_restore (fun _ => rfl) ring_ror_acc s

end Sys2Proof.Machine
end

section
/-! PROOF. Flag instructions and NOP (46_flags_nop R160–R167): each flag instruction is one `setFlag`, of a constant. -/

namespace Sys2Proof.Machine

open Sys2Proof.Claims

/-! `setFlag` for the four flags that have an instruction of their own: one flag takes the bit, and no other field changes. -/

theorem State.setFlag_c_eq (s : State) (b : Bool) : s.setFlag .c b = { s with flags := { s.flags with c := b } } := rfl

theorem State.setFlag_d_eq (s : State) (b : Bool) : s.setFlag .d b = { s with flags := { s.flags with d := b } } := rfl

theorem State.setFlag_i_eq (s : State) (b : Bool) : s.setFlag .i b = { s with flags := { s.flags with i := b } } := rfl

theorem State.setFlag_v_eq (s : State) (b : Bool) : s.setFlag .v b = { s with flags := { s.flags with v := b } } := rfl

/-- Settles O32: the clears and the sets write their own flag by `setFlag`, and NOP answers the state it is given. -/
theorem flagInstructionsWriteOneFlag : Obligations.FlagInstructionsWriteOneFlag := by
  refine ⟨rfl, rfl, rfl, rfl, rfl, rfl, rfl, rfl, fun s => ⟨?clc, ?cld, ?cli, ?clv, ?sec, ?sed, ?sei, ?nop⟩⟩
  case clc => exact congrArg Host.Outcome.next (s.setFlag_c_eq false)
  case cld => exact congrArg Host.Outcome.next (s.setFlag_d_eq false)
  case cli => exact congrArg Host.Outcome.next (s.setFlag_i_eq false)
  case clv => exact congrArg Host.Outcome.next (s.setFlag_v_eq false)
  case sec => exact congrArg Host.Outcome.next (s.setFlag_c_eq true)
  case sed => exact congrArg Host.Outcome.next (s.setFlag_d_eq true)
  case sei => exact congrArg Host.Outcome.next (s.setFlag_i_eq true)
  case nop => rfl

end Sys2Proof.Machine
end

section
/-! PROOF. The stack (47_stack R170–R174): a push writes the cell of page 1 that SP names, and a pull reads the cell above it. -/

namespace Sys2Proof.Machine

open Sys2Proof.Claims

/-- R170: an address that is SP past 0x0100 is the cell SP names. -/
theorem eq_stackAddr {cell : Word} {sp : Byte} (h : cell.toNat = 0x0100 + sp.toNat) : cell = stackAddr sp :=
  BitVec.eq_of_toNat_eq (h.trans (stackAddr_toNat sp).symm)

/-- What PHA and PHP share: SP falls by 1, and one cell takes the byte. -/
theorem State.push_writes (s : State) (v : Byte) :
    s.push v = { s with sp := BitVec.ofNat 8 ((s.sp.toNat + 255) % 256), mem := (s.push v).mem } ∧
      OneCellWritten s (s.push v) (stackAddr s.sp) v :=
  ⟨by rw [← byte_sub_one_eq]; rfl, s.write_oneCellWritten (stackAddr s.sp) v⟩

/-- Settles O33: both push one byte, A or the status byte. -/
theorem pushesWriteOneStackCell : Obligations.PushesWriteOneStackCell := by
  refine ⟨rfl, rfl, fun s cell hcell => ?_⟩
  obtain rfl := eq_stackAddr hcell
  exact ⟨⟨_, rfl, s.push_writes s.a⟩, ⟨_, rfl, s.push_writes s.flags.pushed⟩⟩

/-- PLA writes A, N and Z as AND, EOR and ORA do. -/
theorem exec_pla (s : State) :
    exec .pla s = .next { s with sp := s.sp + 1, a := s.pullByte, flags := withNZ s.flags s.pullByte } :=
  congrArg Host.Outcome.next (s.pulled.takeLogic_eq_withNZ s.pullByte)

theorem exec_plp (s : State) :
    exec .plp s = .next { s with sp := s.sp + 1, flags := Flags.ofByte s.pullByte } := rfl

/-- Settles O34: the byte above SP is the one a pull returns. -/
theorem pullsTakeTheByteAboveSp : Obligations.PullsTakeTheByteAboveSp := by
  refine ⟨rfl, rfl, fun s cell hcell => ?_⟩
  have hsp : (s.sp + 1).toNat = (s.sp.toNat + 1) % 256 := BitVec.toNat_add ..
  obtain rfl : cell = stackAddr (s.sp + 1) := eq_stackAddr (hsp ▸ hcell)
  rw [← byte_add_one_eq]
  exact ⟨exec_pla s, exec_plp s⟩

/-- A pull with SP one below `p` reads the cell of `p`. -/
theorem State.pullByte_of_sp {s : State} {p : Byte} (h : s.sp = p - 1) : s.pullByte = s.read (stackAddr p) := by
  rw [State.pullByte, h, BitVec.sub_add_cancel]

/-- The cell a push wrote, where it still holds the byte, is what a pull reads from the SP the push left. -/
theorem pullByte_of_push {s t : State} {v : Byte} (hsp : t.sp = (s.push v).sp)
    (hcell : t.read (stackAddr s.sp) = (s.push v).read (stackAddr s.sp)) : t.pullByte = v := by
  rw [State.pullByte_of_sp hsp, hcell, State.read_push, if_pos rfl]

/-- Settles O35: the pull reads the pushed byte, which for PLP holds all six flags. -/
theorem pullUndoesPush : Obligations.PullUndoesPush := by
  intro s
  refine ⟨_, _, rfl, rfl, fun t hsp hcell => ⟨_, exec_plp t, ?_, ?_⟩, fun u hsp hcell => ⟨_, exec_pla u, ?_, ?_, ?_⟩⟩
  · rw [pullByte_of_push hsp hcell, Flags.ofByte_pushed]
  · rw [hsp, State.push_sp, BitVec.sub_add_cancel]
  · exact pullByte_of_push hsp hcell
  · rw [hsp, State.push_sp, BitVec.sub_add_cancel]
  · rw [pullByte_of_push hsp hcell]

end Sys2Proof.Machine
end

section
/-! PROOF. Branches (48_control R180–R188): PC moves by the signed displacement when the condition holds. -/

namespace Sys2Proof.Machine

open Sys2Proof.Claims

/-- R94: the target of a branch, its displacement signed. -/
theorem relativeTarget_eq_ofInt (d : Byte) (s : State) :
    relativeTarget d s = BitVec.ofInt 16 ((s.pc.toNat : Int) + d.toInt) := by
  rw [BitVec.ofInt_add, BitVec.ofInt_natCast, BitVec.ofNat_toNat, BitVec.setWidth_eq]
  rfl

/-- R180: a branch on a condition changes PC when the condition holds, and nothing else. -/
theorem branch_eq_ite {cond : Bool} {P : Prop} [Decidable P] (h : cond = true ↔ P) (d : Byte) (s : State) :
    branch cond d s = { s with pc := if P then relativeTarget d s else s.pc } := by
  obtain ⟨hcond, hs⟩ | ⟨hcond, hs⟩ := branch_cases cond d s
  · rw [hs, if_pos (h.1 hcond)]
    rfl
  · rw [hs, if_neg (mt h.2 (by simp [hcond]))]

/-- Settles O36: each mnemonic branches on its flag, or on its flag's complement. -/
theorem branchesMovePcWhenTaken : Obligations.BranchesMovePcWhenTaken := by
  refine ⟨rfl, rfl, rfl, rfl, rfl, rfl, rfl, rfl, fun s d target htarget => ?_⟩
  obtain rfl := htarget.trans (relativeTarget_eq_ofInt d s).symm
  have onClear (b : Bool) : (!b) = true ↔ b = false := (Bool.not_eq_true' b).to_iff
  refine ⟨?bcc, ?bcs, ?beq, ?bmi, ?bne, ?bpl, ?bvc, ?bvs⟩
  case bcc | bne | bpl | bvc => exact congrArg Host.Outcome.next (branch_eq_ite (onClear _) d s)
  case bcs | beq | bmi | bvs => exact congrArg Host.Outcome.next (branch_eq_ite .rfl d s)

end Sys2Proof.Machine
end

section
/-! PROOF. Subroutines and trap entry and return (48_control R191–R194): what of the return address and the flags lies on the
stack, and where a return goes that finds it there. -/

namespace Sys2Proof.Machine

open Sys2Proof.Claims

/-! ### Words on the stack -/

theorem word_eq_ofNat (lo hi : Byte) : word lo hi = BitVec.ofNat 16 (lo.toNat + 256 * hi.toNat) := by
  rw [← word_toNat, BitVec.ofNat_toNat, BitVec.setWidth_eq]

theorem highByte_eq_ofNat (w : Word) : highByte w = BitVec.ofNat 8 (w.toNat / 256) := by
  rw [← highByte_toNat, BitVec.ofNat_toNat, BitVec.setWidth_eq]

theorem lowByte_eq_ofNat (w : Word) : lowByte w = BitVec.ofNat 8 (w.toNat % 256) := by
  rw [← lowByte_toNat, BitVec.ofNat_toNat, BitVec.setWidth_eq]

/-- Two cells of page 1 at distances 0 to 255 below the same SP are one cell only at equal distances. -/
theorem stackAddr_sub_inj (p : Byte) {j k : Nat} (hj : j < 256) (hk : k < 256) :
    stackAddr (p - BitVec.ofNat 8 j) = stackAddr (p - BitVec.ofNat 8 k) ↔ j = k := by
  rw [stackAddr_inj, BitVec.sub_right_inj, ← BitVec.toNat_inj, BitVec.toNat_ofNat, BitVec.toNat_ofNat, Nat.mod_eq_of_lt hj,
    Nat.mod_eq_of_lt hk]

theorem byte_sub_sub_one (v : Byte) : v - 1 - 1 = v - 2 := by bv_omega

/-- R191: the first cell pushed holds the high byte. -/
theorem State.read_pushWord_high (s : State) (w : Word) : (s.pushWord w).read (stackAddr s.sp) = highByte w := by
  have hne : stackAddr s.sp ≠ stackAddr (s.sp - 1) := by rw [Ne, stackAddr_inj]; bv_omega
  rw [State.read_pushWord, if_neg hne, if_pos rfl]

/-- R191: the second cell pushed holds the low byte. -/
theorem State.read_pushWord_low (s : State) (w : Word) : (s.pushWord w).read (stackAddr (s.sp - 1)) = lowByte w := by
  rw [State.read_pushWord, if_pos rfl]

/-- A word pulled with SP two below `p` lies in the cells of `p` and `p - 1`. -/
theorem State.pullWord_of_sp {s : State} {p : Byte} (h : s.sp = p - 1 - 1) :
    s.pullWord = word (s.read (stackAddr (p - 1))) (s.read (stackAddr p)) := by
  have hpulled : s.pulled.sp = p - 1 := by rw [State.pulled_sp, h, BitVec.sub_add_cancel]
  rw [State.pullWord, State.pullByte_of_sp h, State.pullByte_of_sp hpulled, State.read_pulled]

/-- The word a pull takes from above SP, by value. -/
theorem State.pullWord_eq_ofNat (s : State) :
    s.pullWord =
      BitVec.ofNat 16 ((s.read (stackAddr (s.sp + 1))).toNat + 256 * (s.read (stackAddr (s.sp + 2))).toNat) := by
  rw [State.pullWord_of_sp (p := s.sp + 2) (by bv_omega), word_eq_ofNat, show s.sp + 2 - 1 = s.sp + 1 by bv_omega]

/-! ### Subroutines -/

/-- Settles O38: the return address pushed is PC - 1, and the two cells are the only ones written. -/
theorem jsrPushesTheReturnAddress : Obligations.JsrPushesTheReturnAddress := by
  refine ⟨rfl, fun s w => ?_⟩
  have hret : (s.pc - 1).toNat = (s.pc.toNat + 65535) % 65536 := by bv_omega
  refine ⟨callSub w s, rfl, ?state, ?high, ?low, fun b hhigh hlow => ?frame⟩
  case state =>
    have hsp : s.sp - 1 - 1 = BitVec.ofNat 8 ((s.sp.toNat + 254) % 256) := by bv_omega
    rw [← hsp]
    exact callSub_eq w s
  case high => rw [← hret, ← highByte_eq_ofNat]; exact s.read_pushWord_high _
  case low => rw [← hret, ← lowByte_eq_ofNat]; exact s.read_pushWord_low _
  case frame => rw [callSub, State.read_setPc, State.read_pushWord, if_neg hlow, if_neg hhigh]

/-- Settles O39: the word pulled, plus 1. -/
theorem rtsReturnsPastThePulledAddress : Obligations.RtsReturnsPastThePulledAddress := by
  refine ⟨rfl, fun s => congrArg Host.Outcome.next ?_⟩
  have hsp : s.sp + 1 + 1 = BitVec.ofNat 8 ((s.sp.toNat + 2) % 256) := by bv_omega
  rw [← hsp, BitVec.ofNat_add, ← State.pullWord_eq_ofNat]
  exact returnSub_eq s

/-- Settles O40: the word pulled is the PC - 1 that the call pushed. -/
theorem rtsReturnsAfterTheCall : Obligations.RtsReturnsAfterTheCall := by
  refine fun s w => ⟨callSub w s, rfl, fun u (hsp : u.sp = s.sp - 1 - 1) hhigh hlow => ⟨returnSub u, rfl, ?pc, ?sp⟩⟩
  case pc =>
    have hhigh := hhigh.trans (s.read_pushWord_high (s.pc - 1))
    have hlow := hlow.trans (s.read_pushWord_low (s.pc - 1))
    rw [returnSub, State.setPc_pc, State.pullWord_of_sp hsp, hhigh, hlow, Laws.word_low_high, BitVec.sub_add_cancel]
  case sp => rw [returnSub, State.setPc_sp, State.pulledWord_sp, hsp, BitVec.sub_add_cancel, BitVec.sub_add_cancel]

/-! ### Trap entry and return -/

/-- The three cells trap entry writes: the return address, high byte first, then the flags (R193). -/
theorem State.read_enterTrap_saved (s : State) (ret : Word) :
    (s.enterTrap ret).read (stackAddr s.sp) = highByte ret ∧
      (s.enterTrap ret).read (stackAddr (s.sp - 1)) = lowByte ret ∧
      (s.enterTrap ret).read (stackAddr (s.sp - 2)) = s.flags.pushed := by
  have h01 : s.sp ≠ s.sp - 1 := by bv_omega
  have h02 : s.sp ≠ s.sp - 2 := by bv_omega
  have h12 : s.sp - 1 ≠ s.sp - 2 := by bv_omega
  rw [State.read_enterTrap, State.read_enterTrap, State.read_enterTrap, byte_sub_sub_one]
  refine ⟨?high, ?low, if_pos rfl⟩
  case high => rw [if_neg (mt stackAddr_inj.1 h02), if_neg (mt stackAddr_inj.1 h01), if_pos rfl]
  case low => rw [if_neg (mt stackAddr_inj.1 h12), if_pos rfl]

theorem State.read_enterTrap_outside (s : State) (ret : Word) {b : Word} (hb : b.toNat / 256 ≠ 1) :
    (s.enterTrap ret).read b = s.read b := by
  simp [State.read_enterTrap, ne_stackAddr hb]

/-- The vector lies outside the page of the pushes, so it is as it was before them. -/
theorem State.read16_brkVector_enterTrap (s : State) (ret : Word) :
    (s.enterTrap ret).read16 brkVector = s.read16 brkVector := by
  rw [State.read16, s.read_enterTrap_outside ret (by decide), s.read_enterTrap_outside ret (by decide), State.read16]

theorem State.enterTrap_pc (s : State) (ret : Word) : (s.enterTrap ret).pc = s.read16 brkVector :=
  s.read16_brkVector_enterTrap ret

/-- The state trap entry leaves, but for memory (R193). -/
theorem State.enterTrap_eq (s : State) (ret : Word) :
    s.enterTrap ret = { s with
      pc := s.read16 brkVector
      sp := s.sp - 3
      flags := { s.flags with i := true }
      mem := (s.enterTrap ret).mem } := by
  have hsp : s.sp - 1 - 1 - 1 = s.sp - 3 := by bv_omega
  calc
    s.enterTrap ret = { s.enterTrap ret with pc := (s.enterTrap ret).pc } := rfl
    _ = _ := by
      simp only [State.enterTrap_a, State.enterTrap_x, State.enterTrap_y, State.enterTrap_sp, State.enterTrap_pc,
        State.enterTrap_flags, State.enterTrap_fault, State.enterTrap_haltPc, hsp, Flags.set]

/-- Settles O41: trap entry with the return address PC + 1. -/
theorem brkEntersTheHandler : Obligations.BrkEntersTheHandler := by
  refine ⟨rfl, fun s => ?_⟩
  have hret : (s.pc + 1).toNat = (s.pc.toNat + 1) % 65536 := BitVec.toNat_add ..
  obtain ⟨high, low, flags⟩ := s.read_enterTrap_saved (s.pc + 1)
  refine ⟨s.enterTrap (s.pc + 1), rfl, ?state, ?high, ?low, flags, fun b hhigh hlow hflags => ?frame⟩
  case state =>
    have hsp : s.sp - 3 = BitVec.ofNat 8 ((s.sp.toNat + 253) % 256) := by bv_omega
    rw [← hsp, ← word_eq_ofNat]
    exact s.enterTrap_eq (s.pc + 1)
  case high => rw [high, highByte_eq_ofNat, hret]
  case low => rw [low, lowByte_eq_ofNat, hret]
  case frame => rw [State.read_enterTrap, byte_sub_sub_one, if_neg hflags, if_neg hlow, if_neg hhigh]

/-- The state trap return leaves (R194). -/
theorem State.returnFromTrap_eq (s : State) :
    s.returnFromTrap = { s with flags := Flags.ofByte s.pullByte, sp := s.sp + 3, pc := s.pulled.pullWord } := by
  rw [show s.sp + 3 = s.sp + 1 + 1 + 1 by bv_omega]
  rfl

/-- Settles O42: the flags from the byte above SP, and PC the word above that. -/
theorem rtiRestoresFlagsAndPc : Obligations.RtiRestoresFlagsAndPc := by
  refine ⟨rfl, fun s p hp => congrArg Host.Outcome.next ?_⟩
  obtain rfl := hp
  have hsp : s.sp + 3 = BitVec.ofNat 8 ((s.sp.toNat + 3) % 256) := by bv_omega
  have hlow : s.sp + 1 + 1 = s.sp + 2 := BitVec.add_assoc ..
  have hhigh : s.sp + 1 + 2 = s.sp + 3 := BitVec.add_assoc ..
  have hpc := s.pulled.pullWord_eq_ofNat
  rw [State.pulled_sp, hlow, hhigh] at hpc
  rw [State.returnFromTrap_eq, hpc, ← hsp]
  rfl

/-- Settles O43: the pulls find the flags and the PC + 1 that BRK pushed. -/
theorem rtiReturnsFromTheHandler : Obligations.RtiReturnsFromTheHandler := by
  refine fun s => ⟨s.enterTrap (s.pc + 1), rfl, fun u hsp hhigh hlow hflags => ?_⟩
  obtain ⟨high, low, flags⟩ := s.read_enterTrap_saved (s.pc + 1)
  rw [State.enterTrap_sp] at hsp
  refine ⟨u.returnFromTrap, rfl, ?pc, ?sp, ?flags⟩
  case pc =>
    have hpulled : u.pulled.sp = s.sp - 1 - 1 := by rw [State.pulled_sp, hsp, BitVec.sub_add_cancel]
    rw [State.returnFromTrap_eq, State.pullWord_of_sp hpulled, State.read_pulled, State.read_pulled, hhigh, hlow, high, low,
      Laws.word_low_high]
  case sp => rw [State.returnFromTrap_sp, hsp, BitVec.sub_add_cancel, BitVec.sub_add_cancel, BitVec.sub_add_cancel]
  case flags =>
    rw [State.returnFromTrap_flags, State.pullByte_of_sp hsp, byte_sub_sub_one, hflags, flags, Flags.ofByte_pushed]

end Sys2Proof.Machine
end

section
/-! PROOF. BRKs in a row (48_control R193; 60_exceptions R208; 70_reset R222): a handler that is itself a BRK outside page 1 is
entered at every step, three bytes lower on the stack each time. -/

namespace Sys2Proof.Machine

open Sys2Proof.Claims

/-- BRK has one byte in the table, and pushes its own address plus 2 (30_encoding R71, R193). -/
theorem step_brk {s : State} (hf : s.fault = none) (hp : s.pc ∉ s.haltPc) (h0 : s.read s.pc = 0x00) :
    step s = .next (s.enterTrap (s.pc + 2)) := by
  have bytes : bytesAtPc s 1 = encode .brk := by
    rw [bytesAtPc_one, h0]
    rfl
  have hret : s.pc + 1 + 1 = s.pc + 2 := BitVec.add_assoc ..
  rw [← hret]
  exact step_of_encoding Laws.TableRow.brk hf hp bytes

/-- A running state at a handler that is itself a BRK: the vector leads to it, and it lies outside the page of the pushes. -/
structure AtBrkHandler (handler : Word) (s : State) : Prop where
  pc : s.pc = handler
  fault : s.fault = none
  running : handler ∉ s.haltPc
  vector : s.read16 brkVector = handler
  opcode : s.read handler = 0x00
  page : handler.toNat / 256 ≠ 1

/-- Trap entry leads to the handler, and its pushes leave the handler and the vector alone. -/
theorem atBrkHandler_enterTrap {handler : Word} {s : State} (ret : Word) (hf : s.fault = none) (hrun : handler ∉ s.haltPc)
    (hvector : s.read16 brkVector = handler) (hop : s.read handler = 0x00) (hpage : handler.toNat / 256 ≠ 1) :
    AtBrkHandler handler (s.enterTrap ret) where
  pc := (s.enterTrap_pc ret).trans hvector
  fault := (s.enterTrap_fault ret).trans hf
  running := by rwa [State.enterTrap_haltPc]
  vector := (s.read16_brkVector_enterTrap ret).trans hvector
  opcode := (s.read_enterTrap_outside ret hpage).trans hop
  page := hpage

theorem AtBrkHandler.enterTrap {handler : Word} {s : State} (h : AtBrkHandler handler s) (ret : Word) :
    AtBrkHandler handler (s.enterTrap ret) :=
  atBrkHandler_enterTrap ret h.fault h.running h.vector h.opcode h.page

theorem AtBrkHandler.step_eq {handler : Word} {s : State} (h : AtBrkHandler handler s) :
    step s = .next (s.enterTrap (handler + 2)) := by
  obtain ⟨rfl, hf, hrun, -, hop, -⟩ := h
  exact step_brk hf hrun hop

/-- What `n` BRKs in a row leave of the state `s` they start from: three bytes of the stack for each, and I. The cells of
page 1 they have not reached are given by their distance below SP. -/
structure BrksFrom (s : State) (n : Nat) (t : State) : Prop where
  a : t.a = s.a
  x : t.x = s.x
  y : t.y = s.y
  sp : t.sp = s.sp - BitVec.ofNat 8 (3 * n)
  flags : t.flags = if n = 0 then s.flags else { s.flags with i := true }
  outside : ∀ b : Word, b.toNat / 256 ≠ 1 → t.read b = s.read b
  unreached : ∀ k, 3 * n ≤ k → k < 256 →
    t.read (stackAddr (s.sp - BitVec.ofNat 8 k)) = s.read (stackAddr (s.sp - BitVec.ofNat 8 k))

theorem BrksFrom.zero (s : State) : BrksFrom s 0 s where
  a := rfl
  x := rfl
  y := rfl
  sp := (BitVec.sub_zero _).symm
  flags := rfl
  outside _ _ := rfl
  unreached _ _ _ := rfl

theorem BrksFrom.succ {s t : State} {n : Nat} (h : BrksFrom s n t) (ret : Word) : BrksFrom s (n + 1) (t.enterTrap ret) where
  a := (t.enterTrap_a ret).trans h.a
  x := (t.enterTrap_x ret).trans h.x
  y := (t.enterTrap_y ret).trans h.y
  sp := by
    rw [State.enterTrap_sp, h.sp]
    bv_omega
  flags := by
    rw [State.enterTrap_flags, h.flags]
    cases n <;> rfl
  outside b hb := (t.read_enterTrap_outside ret hb).trans (h.outside b hb)
  unreached k hk hlt := by
    have hsp1 : t.sp - 1 = s.sp - BitVec.ofNat 8 (3 * n + 1) := by rw [h.sp]; bv_omega
    have hsp2 : t.sp - 1 - 1 = s.sp - BitVec.ofNat 8 (3 * n + 2) := by rw [h.sp]; bv_omega
    have apart {j : Nat} (hj : j < k) : stackAddr (s.sp - BitVec.ofNat 8 k) ≠ stackAddr (s.sp - BitVec.ofNat 8 j) :=
      mt (stackAddr_sub_inj _ hlt (by omega)).1 (by omega)
    rw [State.read_enterTrap, hsp2, hsp1, h.sp, if_neg (apart (by omega)), if_neg (apart (by omega)),
      if_neg (apart (by omega)), h.unreached k (by omega) hlt]

/-- From such a handler, `n` steps are `n` BRKs. -/
theorem AtBrkHandler.runs {handler : Word} {s : State} (h : AtBrkHandler handler s) (n : Nat) :
    ∃ t, RunsTo n s t ∧ AtBrkHandler handler t ∧ BrksFrom s n t := by
  induction n with
  | zero => exact ⟨s, runsTo_zero.2 rfl, h, .zero s⟩
  | succ n ih =>
    obtain ⟨t, hrun, ht, hfrom⟩ := ih
    exact ⟨_, hrun.snoc ht.step_eq, ht.enterTrap _, hfrom.succ _⟩

/-- Settles O45: 0x0000 is a handler that is a BRK. -/
theorem brkLoopsThroughAZeroVector : Obligations.BrkLoopsThroughAZeroVector := by
  intro s n hf hrun hpc hop hlow hhigh
  have hvector : s.read16 brkVector = 0x0000 := by
    rw [State.read16, show s.read brkVector = 0x00 from hlow, show s.read (brkVector + 1) = 0x00 from hhigh]
    rfl
  obtain ⟨t, ht, hat, hfrom⟩ := AtBrkHandler.runs ⟨hpc, hf, hrun, hvector, hop, by decide⟩ n
  exact ⟨t, ht, hat.pc, hfrom.sp, hfrom.a, hfrom.x, hfrom.y,
    fun hn => by rw [hfrom.flags, if_neg (by omega)], hfrom.outside⟩

/-- Settles O44: after the first BRK the handler's follow, each three cells lower; the 85th leaves SP one above the oldest byte,
so that the second push of the 86th reaches it. -/
theorem nestedBrksFillTheStackPage : Obligations.NestedBrksFillTheStackPage := by
  intro s handler hf hp hnothalt hop hvector hhandler hpage
  have hfirst := step_brk hf hp hop
  have hat : AtBrkHandler handler (s.enterTrap (s.pc + 2)) := atBrkHandler_enterTrap _ hf hnothalt hvector.symm hhandler hpage
  have hsp : (s.enterTrap (s.pc + 2)).sp = s.sp - 3 := by rw [State.enterTrap_sp]; bv_omega
  refine ⟨fun n hn hn85 => ?_, ?_⟩
  · obtain ⟨m, rfl⟩ := Nat.exists_eq_add_of_le' hn
    obtain ⟨t, hrun, hend, hfrom⟩ := hat.runs m
    refine ⟨t, runsTo_succ.2 ⟨_, hfirst, hrun⟩, hend.pc, ?sp, ?oldest, ?spare⟩
    case sp => rw [hfrom.sp, hsp]; bv_omega
    case oldest =>
      have kept := hfrom.unreached 253 (by omega) (by decide)
      rw [hsp, show s.sp - 3 - BitVec.ofNat 8 253 = s.sp by bv_omega] at kept
      exact kept.trans (s.read_enterTrap_saved _).1
    case spare =>
      have kept := hfrom.unreached 252 (by omega) (by decide)
      have keptFirst := ((BrksFrom.zero s).succ (s.pc + 2)).unreached 255 (by decide) (by decide)
      rw [hsp, show s.sp - 3 - BitVec.ofNat 8 252 = s.sp + 1 by bv_omega] at kept
      rw [show s.sp - BitVec.ofNat 8 255 = s.sp + 1 by bv_omega] at keptFirst
      exact kept.trans keptFirst
  · obtain ⟨t, hrun, hend, hfrom⟩ := hat.runs 84
    obtain ⟨-, low, -⟩ := t.read_enterTrap_saved (handler + 2)
    rw [hfrom.sp, hsp, show s.sp - 3 - BitVec.ofNat 8 (3 * 84) - 1 = s.sp by bv_omega] at low
    exact ⟨_, runsTo_succ.2 ⟨_, hfirst, hrun.snoc hend.step_eq⟩, (hend.enterTrap _).pc, low⟩

end Sys2Proof.Machine
end

section
/-! PROOF. Cycle counts (70_reset R232–R234): what the table's rows note beside a base count, and what a branch or a page crossing
then adds. -/

namespace Sys2Proof.Machine

open Sys2Proof.Claims

/-- 30_encoding R74: a branch takes 2 cycles and the extras of R234. -/
theorem opcodeTable_branch_rows : ∀ r ∈ opcodeTable, r.mode = .rel → r.cycles = 2 ∧ r.extra = .branch := by
  decide +kernel

/-- 30_encoding R74: the rows of R233's three modes note the page crossing but for stores and read-modify-write. -/
theorem opcodeTable_indexed_rows : ∀ r ∈ opcodeTable, r.mode = .absx ∨ r.mode = .absy ∨ r.mode = .indy →
    r.extra = if r.mnemonic ∈ [Mnemonic.sta, .inc, .dec, .asl, .lsr, .rol, .ror] then .none else .pageCrossed := by
  decide +kernel

/-- The cycles of an instruction, by its row. -/
theorem cycles_of_row (i : Instr) (s : State) : ∃ r ∈ opcodeTable, r.mnemonic = i.mnemonic ∧ r.mode = i.mode ∧
    (metaOf i.opcode).cycles = r.cycles ∧ cycles i s = r.cycles + extraCycles r.extra i s := by
  obtain ⟨r, hrow, hmnemonic, hmode, -, -⟩ := Laws.tableRow i
  exact ⟨r, (rowOf_mem hrow).1, hmnemonic, hmode, by rw [metaOf_of_rowOf hrow], by rw [cycles, hrow]⟩

theorem highByte_eq_iff {v w : Word} : highByte v = highByte w ↔ v.toNat / 256 = w.toNat / 256 := by
  rw [← BitVec.toNat_inj, highByte_toNat, highByte_toNat]

/-- R234 for any branch: `P` is its condition. -/
theorem cycles_of_branch {i : Instr} {d : Byte} {s : State} {P : Prop} [Decidable P] {taken : Nat} (hform : i.form = .rel d)
    (h : branchTaken i.mnemonic s.flags = true ↔ P)
    (htaken : taken = if s.pc.toNat / 256 = (BitVec.ofInt 16 ((s.pc.toNat : Int) + d.toInt)).toNat / 256 then 3 else 4) :
    cycles i s = if P then taken else 2 := by
  obtain ⟨r, hr, -, hmode, -, hcycles⟩ := cycles_of_row i s
  obtain ⟨hbase, hextra⟩ := opcodeTable_branch_rows r hr (hmode.trans (congrArg Form.mode hform))
  rw [hcycles, hbase, hextra, extraCycles, branchExtra, hform, htaken]
  simp only [h, highByte_eq_iff, relativeTarget_eq_ofInt, eq_comm (a := s.pc.toNat / 256)]
  split_ifs <;> rfl

/-- Settles O55: each mnemonic's condition is its flag, or its flag's complement. -/
theorem branchCycles : Obligations.BranchCycles := by
  intro s d taken htaken
  have onClear (b : Bool) : (!b) = true ↔ b = false := (Bool.not_eq_true' b).to_iff
  refine ⟨?bcc, ?bcs, ?beq, ?bmi, ?bne, ?bpl, ?bvc, ?bvs⟩
  case bcc | bne | bpl | bvc => exact cycles_of_branch rfl (onClear _) htaken
  case bcs | beq | bmi | bvs => exact cycles_of_branch rfl .rfl htaken

/-- Settles O56: the rows of the three modes note the page crossing for every other mnemonic. -/
theorem pageCrossingCycles : Obligations.PageCrossingCycles := by
  intro i s m hform hmodes
  obtain ⟨r, hr, hmnemonic, hmode, hmeta, hcycles⟩ := cycles_of_row i s
  have hextra := opcodeTable_indexed_rows r hr (hmode ▸ hmodes)
  rw [hcycles, hmeta, hextra, hmnemonic]
  by_cases hrmw : i.mnemonic ∈ [Mnemonic.sta, .inc, .dec, .asl, .lsr, .rol, .ror]
  · rw [if_pos hrmw, if_pos hrmw, extraCycles]
  · rw [if_neg hrmw, if_neg hrmw, extraCycles, hform, pageCrossed]
    simp only [bne_iff_ne, ne_eq, highByte_eq_iff, ite_not]

end Sys2Proof.Machine
end
